-- ==== Sys2Proof/Word.lean ====
section
/-!
DEFINITION. The words of the block: register and sound-RAM cells, samples, command words, indices and offsets, as bit vectors of the
widths the spec gives (R12, R18, R40, R120, R122).
-/

namespace Sys2Proof

/-- One 16-bit location of the register file or of sound RAM (R18). -/
abbrev Cell := BitVec 16

/-- A sample, gain or level: 16 bits read as a signed number (R170). -/
abbrev Sample := BitVec 16

/-- A 48-bit command word (R120). -/
abbrev CmdWord := BitVec 48

/-- The 12-bit byte offset field of a command (R122). -/
abbrev ByteOff := BitVec 12

/-- A half-word offset, `boff[11:1]`, 0..0x7FF (R122). -/
abbrev HalfOff := BitVec 11

/-- A sound-RAM index: 18 bits, so every index is masked to the RAM size by its type (R80). -/
abbrev Index := BitVec 18

/-- A mask with one bit for each voice (R42, R167). -/
abbrev Mask24 := BitVec 24

/-- A voice number, 0..23 (R10, R50). -/
abbrev VoiceId := Fin 24

/-- A storage cell of the register file, `regs[0x00..0xFF]` (R32). -/
abbrev CellId := Fin 256

end Sys2Proof
end

