-- ==== Sys2Proof/Config.lean ====
section
/-!
DEFINITION. What an implementation fixes: the parameters of 00_scope.md R11 as the fields of one structure, and the one free value,
the interpolation table FIR4, which the spec leaves OPEN (R211). The defaults of the other fields stand in Machine/Params.lean.
-/

namespace Sys2Proof

/-- Which sample a voice hands to its successor for frequency modulation (R217). -/
inductive FmSource where
  | preEnvelope
  | postEnvelope
  deriving DecidableEq, Repr

/-- The ring buffer's overflow policy; the order is that of the 2-bit code of R129. -/
inductive RingPolicy where
  | dropOldest
  | dropNewest
  | halveBuffer
  | reset
  deriving DecidableEq, Repr

/-- FREE VALUE (assumption 1). The 256 rows of four signed 16-bit coefficients of the four-tap interpolation filter: "FIR4 is an OPEN
parameter, an argument of the model" (R211). It has no body that a proof could see. -/
opaque Config.fir4Table : BitVec 8 → Fin 4 → BitVec 16

/-- The parameters of R11, each a field. -/
structure Config where
  /-- CLOCK_DIV: host cycles per tick (R455). -/
  clockDiv : Nat
  /-- BLOCK_WORDS: cells of an ADPCM block (R190). "fixed; other values are not supported by the rules" (D4): the rules mask with 7, so no
  meaning reads it. -/
  blockWords : Nat
  /-- WEIGHTS: (w_pos, w_neg) of each filter-weight index (R194). -/
  weights : BitVec 4 → Int × Int
  /-- FIFO_CAP: the capacity of a decode FIFO (R202); no rule acts on it, since no push meets a full FIFO. -/
  fifoCap : Nat
  /-- FIFO_DECODE_BELOW: a data cell is decoded when the FIFO holds fewer samples than this (R196). -/
  fifoDecodeBelow : Nat
  /-- FIR4: the interpolation table, row and tap (R211). -/
  fir4 : BitVec 8 → Fin 4 → BitVec 16
  /-- FM_SOURCE (R217). -/
  fmSource : FmSource
  /-- START_DELAY: ticks that a started voice holds its envelope and phase (R290). -/
  startDelay : Nat
  /-- FIR39: the coefficients of the reverb's resamplers, index 0 first (R314). -/
  fir39 : List Int
  /-- NOISE_INVERT: the noise feedback is inverted (R273). -/
  noiseInvert : Bool
  /-- RING_DEFAULT_SIZE: the ring's requested size after RESET, in samples (R470). -/
  ringDefaultSize : Nat
  /-- RING_DEFAULT_POLICY (R470). -/
  ringDefaultPolicy : RingPolicy
  /-- HALVE_ADMITS_NEW: HalveBuffer stores the incoming pair (R416). -/
  halveAdmitsNew : Bool
  /-- RVB_WRITE_ALWAYS: reverb writes ignore CONTROL bit 7 (R317). -/
  rvbWriteAlways : Bool
  /-- RAM_INIT: sound RAM after reset, by the cells that are not zero (R40, R470); any content can be written so. -/
  ramInit : List (Index × Cell)

end Sys2Proof
end

