-- ==== Sys2Proof/Syntax.lean ====
section
/-!
DEFINITION. The commands (R120) and logical registers (R130). `Instr` has one constructor per mnemonic of spec/opcode_table.json: the
16 commands, and the register rows that refine RD16 and WR16. Rows that share a mnemonic (voices 0..15 and 16..23; the five unmapped
ranges) are one constructor with the voice number or the offset as its operand (assumption 8).
-/

namespace Sys2Proof

/-- Left or right. -/
inductive Side where
  | left
  | right
  deriving DecidableEq, Repr

/-- The eight cells of a voice block, in the order r = 0..7 (R33). -/
inductive VReg where
  | volL
  | volR
  | pitch
  | start
  | adsrLo
  | adsrHi
  | level
  | repeatIx
  deriving DecidableEq, Repr

/-- The 64 registers of the global block, in the order of their offsets 0xC0..0xFF (R33, R311). -/
inductive GReg where
  | mainVolL
  | mainVolR
  | rvbOutL
  | rvbOutR
  | konLo
  | konHi
  | koffLo
  | koffHi
  | fmLo
  | fmHi
  | noiseLo
  | noiseHi
  | rvbEnLo
  | rvbEnHi
  | endxLo
  | endxHi
  | cellD0
  | rvbBase
  | irqAddr
  | xferAddr
  | xferFifo
  | control
  | xferCtrl
  | status
  | cdVolL
  | cdVolR
  | cellDA
  | cellDB
  | cellDC
  | cellDD
  | cellDE
  | cellDF
  | rvbDAPF1
  | rvbDAPF2
  | rvbVIIR
  | rvbVCOMB1
  | rvbVCOMB2
  | rvbVCOMB3
  | rvbVCOMB4
  | rvbVWALL
  | rvbVAPF1
  | rvbVAPF2
  | rvbMLSAME
  | rvbMRSAME
  | rvbMLCOMB1
  | rvbMRCOMB1
  | rvbMLCOMB2
  | rvbMRCOMB2
  | rvbDLSAME
  | rvbDRSAME
  | rvbMLDIFF
  | rvbMRDIFF
  | rvbMLCOMB3
  | rvbMRCOMB3
  | rvbMLCOMB4
  | rvbMRCOMB4
  | rvbDLDIFF
  | rvbDRDIFF
  | rvbMLAPF1
  | rvbMRAPF1
  | rvbMLAPF2
  | rvbMRAPF2
  | rvbVLIN
  | rvbVRIN
  deriving DecidableEq, Repr

/-- A logical register: what a half-word offset decodes to (R130). -/
inductive LogReg where
  /-- Voice(v, r). -/
  | voice (v : VoiceId) (r : VReg)
  /-- Global(h). -/
  | glob (g : GReg)
  /-- CurVol(v, side). -/
  | curVol (v : VoiceId) (side : Side)
  /-- Unmapped, with its offset. -/
  | unmapped (h : HalfOff)
  deriving DecidableEq, Repr

/-- The commands. Operands are the fields the command uses (R120, R129); `rd16` and `wr16` are the command rows RD16 and WR16, whose
every word one register row refines (R130, assumption 7). -/
inductive Instr where
  | nop
  | rd8 (boff : ByteOff)
  | rd16 (boff : ByteOff)
  | rd32 (boff : ByteOff)
  | push (l r : Sample)
  | wr8 (boff : ByteOff) (b : BitVec 8)
  | wr16 (boff : ByteOff) (val : Cell)
  | wr32 (boff : ByteOff) (w : BitVec 32)
  | dmast (w : BitVec 32)
  | dmald
  | tick
  | resync (cycles : BitVec 32)
  | cdin (l r : Sample)
  | pop (maxPairs : BitVec 32)
  | ringcfg (size : BitVec 20) (policy : RingPolicy) (overlay : Bool) (latency : BitVec 12)
  | reset
  | rd16VVolL (v : VoiceId)
  | rd16VVolR (v : VoiceId)
  | rd16VPitch (v : VoiceId)
  | rd16VStart (v : VoiceId)
  | rd16VAdsrLo (v : VoiceId)
  | rd16VAdsrHi (v : VoiceId)
  | rd16VLevel (v : VoiceId)
  | rd16VRepeat (v : VoiceId)
  | rd16MainVolL
  | rd16MainVolR
  | rd16RvbOutL
  | rd16RvbOutR
  | rd16KonLo
  | rd16KonHi
  | rd16KoffLo
  | rd16KoffHi
  | rd16FmLo
  | rd16FmHi
  | rd16NoiseLo
  | rd16NoiseHi
  | rd16RvbEnLo
  | rd16RvbEnHi
  | rd16EndxLo
  | rd16EndxHi
  | rd16CellD0
  | rd16RvbBase
  | rd16IrqAddr
  | rd16XferAddr
  | rd16XferFifo
  | rd16Control
  | rd16XferCtrl
  | rd16Status
  | rd16CdVolL
  | rd16CdVolR
  | rd16CellDA
  | rd16CellDB
  | rd16CellDC
  | rd16CellDD
  | rd16CellDE
  | rd16CellDF
  | rd16RvbDAPF1
  | rd16RvbDAPF2
  | rd16RvbVIIR
  | rd16RvbVCOMB1
  | rd16RvbVCOMB2
  | rd16RvbVCOMB3
  | rd16RvbVCOMB4
  | rd16RvbVWALL
  | rd16RvbVAPF1
  | rd16RvbVAPF2
  | rd16RvbMLSAME
  | rd16RvbMRSAME
  | rd16RvbMLCOMB1
  | rd16RvbMRCOMB1
  | rd16RvbMLCOMB2
  | rd16RvbMRCOMB2
  | rd16RvbDLSAME
  | rd16RvbDRSAME
  | rd16RvbMLDIFF
  | rd16RvbMRDIFF
  | rd16RvbMLCOMB3
  | rd16RvbMRCOMB3
  | rd16RvbMLCOMB4
  | rd16RvbMRCOMB4
  | rd16RvbDLDIFF
  | rd16RvbDRDIFF
  | rd16RvbMLAPF1
  | rd16RvbMRAPF1
  | rd16RvbMLAPF2
  | rd16RvbMRAPF2
  | rd16RvbVLIN
  | rd16RvbVRIN
  | rd16VCurvolL (v : VoiceId)
  | rd16VCurvolR (v : VoiceId)
  | rd16Unmapped (h : HalfOff)
  | wr16VVolL (v : VoiceId) (val : Cell)
  | wr16VVolR (v : VoiceId) (val : Cell)
  | wr16VPitch (v : VoiceId) (val : Cell)
  | wr16VStart (v : VoiceId) (val : Cell)
  | wr16VAdsrLo (v : VoiceId) (val : Cell)
  | wr16VAdsrHi (v : VoiceId) (val : Cell)
  | wr16VLevel (v : VoiceId) (val : Cell)
  | wr16VRepeat (v : VoiceId) (val : Cell)
  | wr16MainVolL (val : Cell)
  | wr16MainVolR (val : Cell)
  | wr16RvbOutL (val : Cell)
  | wr16RvbOutR (val : Cell)
  | wr16KonLo (val : Cell)
  | wr16KonHi (val : Cell)
  | wr16KoffLo (val : Cell)
  | wr16KoffHi (val : Cell)
  | wr16FmLo (val : Cell)
  | wr16FmHi (val : Cell)
  | wr16NoiseLo (val : Cell)
  | wr16NoiseHi (val : Cell)
  | wr16RvbEnLo (val : Cell)
  | wr16RvbEnHi (val : Cell)
  | wr16EndxLo (val : Cell)
  | wr16EndxHi (val : Cell)
  | wr16CellD0 (val : Cell)
  | wr16RvbBase (val : Cell)
  | wr16IrqAddr (val : Cell)
  | wr16XferAddr (val : Cell)
  | wr16XferFifo (val : Cell)
  | wr16Control (val : Cell)
  | wr16XferCtrl (val : Cell)
  | wr16Status (val : Cell)
  | wr16CdVolL (val : Cell)
  | wr16CdVolR (val : Cell)
  | wr16CellDA (val : Cell)
  | wr16CellDB (val : Cell)
  | wr16CellDC (val : Cell)
  | wr16CellDD (val : Cell)
  | wr16CellDE (val : Cell)
  | wr16CellDF (val : Cell)
  | wr16RvbDAPF1 (val : Cell)
  | wr16RvbDAPF2 (val : Cell)
  | wr16RvbVIIR (val : Cell)
  | wr16RvbVCOMB1 (val : Cell)
  | wr16RvbVCOMB2 (val : Cell)
  | wr16RvbVCOMB3 (val : Cell)
  | wr16RvbVCOMB4 (val : Cell)
  | wr16RvbVWALL (val : Cell)
  | wr16RvbVAPF1 (val : Cell)
  | wr16RvbVAPF2 (val : Cell)
  | wr16RvbMLSAME (val : Cell)
  | wr16RvbMRSAME (val : Cell)
  | wr16RvbMLCOMB1 (val : Cell)
  | wr16RvbMRCOMB1 (val : Cell)
  | wr16RvbMLCOMB2 (val : Cell)
  | wr16RvbMRCOMB2 (val : Cell)
  | wr16RvbDLSAME (val : Cell)
  | wr16RvbDRSAME (val : Cell)
  | wr16RvbMLDIFF (val : Cell)
  | wr16RvbMRDIFF (val : Cell)
  | wr16RvbMLCOMB3 (val : Cell)
  | wr16RvbMRCOMB3 (val : Cell)
  | wr16RvbMLCOMB4 (val : Cell)
  | wr16RvbMRCOMB4 (val : Cell)
  | wr16RvbDLDIFF (val : Cell)
  | wr16RvbDRDIFF (val : Cell)
  | wr16RvbMLAPF1 (val : Cell)
  | wr16RvbMRAPF1 (val : Cell)
  | wr16RvbMLAPF2 (val : Cell)
  | wr16RvbMRAPF2 (val : Cell)
  | wr16RvbVLIN (val : Cell)
  | wr16RvbVRIN (val : Cell)
  | wr16VCurvolL (v : VoiceId) (val : Cell)
  | wr16VCurvolR (v : VoiceId) (val : Cell)
  | wr16Unmapped (h : HalfOff) (val : Cell)
  deriving DecidableEq, Repr

end Sys2Proof
end

