-- ==== Sys2Proof/Decode.lean ====
section
/-!
DEFINITION. Decoding of command words, total: "No command word is illegal" (R125). Then the encoder, written from the same tables, and the
host's entry `decodeTableWord`. Layout: `op[47:44] ++ boff[43:32] ++ data[31:0]` (R120).
-/

namespace Sys2Proof

/-- The half-word offset `h = boff[11:1]`; `boff[0]` is ignored (R122). -/
def halfOff (boff : ByteOff) : HalfOff := boff.extractLsb' 1 11

/-- The byte offset 2h of a half-word offset (R122). -/
def byteOff (h : HalfOff) : ByteOff := h ++ 0#1

/-- The voice cell r, 0..7 (R33). -/
def VReg.ofPlace (r : Nat) : VReg :=
  match r with
  | 0 => .volL
  | 1 => .volR
  | 2 => .pitch
  | 3 => .start
  | 4 => .adsrLo
  | 5 => .adsrHi
  | 6 => .level
  | _ => .repeatIx

/-- The place r of a cell in its voice block (R33). -/
def VReg.place : VReg → Nat
  | .volL => 0
  | .volR => 1
  | .pitch => 2
  | .start => 3
  | .adsrLo => 4
  | .adsrHi => 5
  | .level => 6
  | .repeatIx => 7

/-- The global register at offset 0xC0 + n (R33, R311). -/
def GReg.ofPlace (n : Nat) : GReg :=
  match n with
  | 0 => .mainVolL
  | 1 => .mainVolR
  | 2 => .rvbOutL
  | 3 => .rvbOutR
  | 4 => .konLo
  | 5 => .konHi
  | 6 => .koffLo
  | 7 => .koffHi
  | 8 => .fmLo
  | 9 => .fmHi
  | 10 => .noiseLo
  | 11 => .noiseHi
  | 12 => .rvbEnLo
  | 13 => .rvbEnHi
  | 14 => .endxLo
  | 15 => .endxHi
  | 16 => .cellD0
  | 17 => .rvbBase
  | 18 => .irqAddr
  | 19 => .xferAddr
  | 20 => .xferFifo
  | 21 => .control
  | 22 => .xferCtrl
  | 23 => .status
  | 24 => .cdVolL
  | 25 => .cdVolR
  | 26 => .cellDA
  | 27 => .cellDB
  | 28 => .cellDC
  | 29 => .cellDD
  | 30 => .cellDE
  | 31 => .cellDF
  | 32 => .rvbDAPF1
  | 33 => .rvbDAPF2
  | 34 => .rvbVIIR
  | 35 => .rvbVCOMB1
  | 36 => .rvbVCOMB2
  | 37 => .rvbVCOMB3
  | 38 => .rvbVCOMB4
  | 39 => .rvbVWALL
  | 40 => .rvbVAPF1
  | 41 => .rvbVAPF2
  | 42 => .rvbMLSAME
  | 43 => .rvbMRSAME
  | 44 => .rvbMLCOMB1
  | 45 => .rvbMRCOMB1
  | 46 => .rvbMLCOMB2
  | 47 => .rvbMRCOMB2
  | 48 => .rvbDLSAME
  | 49 => .rvbDRSAME
  | 50 => .rvbMLDIFF
  | 51 => .rvbMRDIFF
  | 52 => .rvbMLCOMB3
  | 53 => .rvbMRCOMB3
  | 54 => .rvbMLCOMB4
  | 55 => .rvbMRCOMB4
  | 56 => .rvbDLDIFF
  | 57 => .rvbDRDIFF
  | 58 => .rvbMLAPF1
  | 59 => .rvbMRAPF1
  | 60 => .rvbMLAPF2
  | 61 => .rvbMRAPF2
  | 62 => .rvbVLIN
  | _ => .rvbVRIN

/-- The cell number of a global register (R33, R311). -/
def GReg.cell : GReg → CellId
  | .mainVolL => 0xC0
  | .mainVolR => 0xC1
  | .rvbOutL => 0xC2
  | .rvbOutR => 0xC3
  | .konLo => 0xC4
  | .konHi => 0xC5
  | .koffLo => 0xC6
  | .koffHi => 0xC7
  | .fmLo => 0xC8
  | .fmHi => 0xC9
  | .noiseLo => 0xCA
  | .noiseHi => 0xCB
  | .rvbEnLo => 0xCC
  | .rvbEnHi => 0xCD
  | .endxLo => 0xCE
  | .endxHi => 0xCF
  | .cellD0 => 0xD0
  | .rvbBase => 0xD1
  | .irqAddr => 0xD2
  | .xferAddr => 0xD3
  | .xferFifo => 0xD4
  | .control => 0xD5
  | .xferCtrl => 0xD6
  | .status => 0xD7
  | .cdVolL => 0xD8
  | .cdVolR => 0xD9
  | .cellDA => 0xDA
  | .cellDB => 0xDB
  | .cellDC => 0xDC
  | .cellDD => 0xDD
  | .cellDE => 0xDE
  | .cellDF => 0xDF
  | .rvbDAPF1 => 0xE0
  | .rvbDAPF2 => 0xE1
  | .rvbVIIR => 0xE2
  | .rvbVCOMB1 => 0xE3
  | .rvbVCOMB2 => 0xE4
  | .rvbVCOMB3 => 0xE5
  | .rvbVCOMB4 => 0xE6
  | .rvbVWALL => 0xE7
  | .rvbVAPF1 => 0xE8
  | .rvbVAPF2 => 0xE9
  | .rvbMLSAME => 0xEA
  | .rvbMRSAME => 0xEB
  | .rvbMLCOMB1 => 0xEC
  | .rvbMRCOMB1 => 0xED
  | .rvbMLCOMB2 => 0xEE
  | .rvbMRCOMB2 => 0xEF
  | .rvbDLSAME => 0xF0
  | .rvbDRSAME => 0xF1
  | .rvbMLDIFF => 0xF2
  | .rvbMRDIFF => 0xF3
  | .rvbMLCOMB3 => 0xF4
  | .rvbMRCOMB3 => 0xF5
  | .rvbMLCOMB4 => 0xF6
  | .rvbMRCOMB4 => 0xF7
  | .rvbDLDIFF => 0xF8
  | .rvbDRDIFF => 0xF9
  | .rvbMLAPF1 => 0xFA
  | .rvbMRAPF1 => 0xFB
  | .rvbMLAPF2 => 0xFC
  | .rvbMRAPF2 => 0xFD
  | .rvbVLIN => 0xFE
  | .rvbVRIN => 0xFF

/-- The cell h = 8v + r of a voice register (R33). -/
def voiceCell (v : VoiceId) (r : VReg) : CellId := ⟨8 * v.val + r.place, by have := v.isLt; cases r <;> simp [VReg.place] <;> omega⟩

/-- The register decode function of R130: by address range, the bound 0x130 half-open (R85, C9). -/
def LogReg.decode (h : HalfOff) : LogReg :=
  if hv : h.toNat < 0xC0 then .voice ⟨h.toNat / 8, by omega⟩ (VReg.ofPlace (h.toNat % 8))
  else if h.toNat ≤ 0xFF then .glob (GReg.ofPlace (h.toNat - 0xC0))
  else if hc : h.toNat < 0x130 then .curVol ⟨(h.toNat - 0x100) / 2, by omega⟩ (if h.toNat % 2 = 1 then .right else .left)
  else .unmapped h

/-- The offset that decodes to a logical register (R33, R379). -/
def LogReg.offset : LogReg → HalfOff
  | .voice v r => BitVec.ofNat 11 (voiceCell v r).val
  | .glob g => BitVec.ofNat 11 g.cell.val
  | .curVol v .left => BitVec.ofNat 11 (0x100 + 2 * v.val)
  | .curVol v .right => BitVec.ofNat 11 (0x101 + 2 * v.val)
  | .unmapped h => h

/-- The register row that refines an RD16 word (R130). -/
def readRow : LogReg → Instr
  | .voice v .volL => .rd16VVolL v
  | .voice v .volR => .rd16VVolR v
  | .voice v .pitch => .rd16VPitch v
  | .voice v .start => .rd16VStart v
  | .voice v .adsrLo => .rd16VAdsrLo v
  | .voice v .adsrHi => .rd16VAdsrHi v
  | .voice v .level => .rd16VLevel v
  | .voice v .repeatIx => .rd16VRepeat v
  | .glob .mainVolL => .rd16MainVolL
  | .glob .mainVolR => .rd16MainVolR
  | .glob .rvbOutL => .rd16RvbOutL
  | .glob .rvbOutR => .rd16RvbOutR
  | .glob .konLo => .rd16KonLo
  | .glob .konHi => .rd16KonHi
  | .glob .koffLo => .rd16KoffLo
  | .glob .koffHi => .rd16KoffHi
  | .glob .fmLo => .rd16FmLo
  | .glob .fmHi => .rd16FmHi
  | .glob .noiseLo => .rd16NoiseLo
  | .glob .noiseHi => .rd16NoiseHi
  | .glob .rvbEnLo => .rd16RvbEnLo
  | .glob .rvbEnHi => .rd16RvbEnHi
  | .glob .endxLo => .rd16EndxLo
  | .glob .endxHi => .rd16EndxHi
  | .glob .cellD0 => .rd16CellD0
  | .glob .rvbBase => .rd16RvbBase
  | .glob .irqAddr => .rd16IrqAddr
  | .glob .xferAddr => .rd16XferAddr
  | .glob .xferFifo => .rd16XferFifo
  | .glob .control => .rd16Control
  | .glob .xferCtrl => .rd16XferCtrl
  | .glob .status => .rd16Status
  | .glob .cdVolL => .rd16CdVolL
  | .glob .cdVolR => .rd16CdVolR
  | .glob .cellDA => .rd16CellDA
  | .glob .cellDB => .rd16CellDB
  | .glob .cellDC => .rd16CellDC
  | .glob .cellDD => .rd16CellDD
  | .glob .cellDE => .rd16CellDE
  | .glob .cellDF => .rd16CellDF
  | .glob .rvbDAPF1 => .rd16RvbDAPF1
  | .glob .rvbDAPF2 => .rd16RvbDAPF2
  | .glob .rvbVIIR => .rd16RvbVIIR
  | .glob .rvbVCOMB1 => .rd16RvbVCOMB1
  | .glob .rvbVCOMB2 => .rd16RvbVCOMB2
  | .glob .rvbVCOMB3 => .rd16RvbVCOMB3
  | .glob .rvbVCOMB4 => .rd16RvbVCOMB4
  | .glob .rvbVWALL => .rd16RvbVWALL
  | .glob .rvbVAPF1 => .rd16RvbVAPF1
  | .glob .rvbVAPF2 => .rd16RvbVAPF2
  | .glob .rvbMLSAME => .rd16RvbMLSAME
  | .glob .rvbMRSAME => .rd16RvbMRSAME
  | .glob .rvbMLCOMB1 => .rd16RvbMLCOMB1
  | .glob .rvbMRCOMB1 => .rd16RvbMRCOMB1
  | .glob .rvbMLCOMB2 => .rd16RvbMLCOMB2
  | .glob .rvbMRCOMB2 => .rd16RvbMRCOMB2
  | .glob .rvbDLSAME => .rd16RvbDLSAME
  | .glob .rvbDRSAME => .rd16RvbDRSAME
  | .glob .rvbMLDIFF => .rd16RvbMLDIFF
  | .glob .rvbMRDIFF => .rd16RvbMRDIFF
  | .glob .rvbMLCOMB3 => .rd16RvbMLCOMB3
  | .glob .rvbMRCOMB3 => .rd16RvbMRCOMB3
  | .glob .rvbMLCOMB4 => .rd16RvbMLCOMB4
  | .glob .rvbMRCOMB4 => .rd16RvbMRCOMB4
  | .glob .rvbDLDIFF => .rd16RvbDLDIFF
  | .glob .rvbDRDIFF => .rd16RvbDRDIFF
  | .glob .rvbMLAPF1 => .rd16RvbMLAPF1
  | .glob .rvbMRAPF1 => .rd16RvbMRAPF1
  | .glob .rvbMLAPF2 => .rd16RvbMLAPF2
  | .glob .rvbMRAPF2 => .rd16RvbMRAPF2
  | .glob .rvbVLIN => .rd16RvbVLIN
  | .glob .rvbVRIN => .rd16RvbVRIN
  | .curVol v .left => .rd16VCurvolL v
  | .curVol v .right => .rd16VCurvolR v
  | .unmapped h => .rd16Unmapped h

/-- The register row that refines a WR16 word (R130). -/
def writeRow : LogReg → Cell → Instr
  | .voice v .volL, val => .wr16VVolL v val
  | .voice v .volR, val => .wr16VVolR v val
  | .voice v .pitch, val => .wr16VPitch v val
  | .voice v .start, val => .wr16VStart v val
  | .voice v .adsrLo, val => .wr16VAdsrLo v val
  | .voice v .adsrHi, val => .wr16VAdsrHi v val
  | .voice v .level, val => .wr16VLevel v val
  | .voice v .repeatIx, val => .wr16VRepeat v val
  | .glob .mainVolL, val => .wr16MainVolL val
  | .glob .mainVolR, val => .wr16MainVolR val
  | .glob .rvbOutL, val => .wr16RvbOutL val
  | .glob .rvbOutR, val => .wr16RvbOutR val
  | .glob .konLo, val => .wr16KonLo val
  | .glob .konHi, val => .wr16KonHi val
  | .glob .koffLo, val => .wr16KoffLo val
  | .glob .koffHi, val => .wr16KoffHi val
  | .glob .fmLo, val => .wr16FmLo val
  | .glob .fmHi, val => .wr16FmHi val
  | .glob .noiseLo, val => .wr16NoiseLo val
  | .glob .noiseHi, val => .wr16NoiseHi val
  | .glob .rvbEnLo, val => .wr16RvbEnLo val
  | .glob .rvbEnHi, val => .wr16RvbEnHi val
  | .glob .endxLo, val => .wr16EndxLo val
  | .glob .endxHi, val => .wr16EndxHi val
  | .glob .cellD0, val => .wr16CellD0 val
  | .glob .rvbBase, val => .wr16RvbBase val
  | .glob .irqAddr, val => .wr16IrqAddr val
  | .glob .xferAddr, val => .wr16XferAddr val
  | .glob .xferFifo, val => .wr16XferFifo val
  | .glob .control, val => .wr16Control val
  | .glob .xferCtrl, val => .wr16XferCtrl val
  | .glob .status, val => .wr16Status val
  | .glob .cdVolL, val => .wr16CdVolL val
  | .glob .cdVolR, val => .wr16CdVolR val
  | .glob .cellDA, val => .wr16CellDA val
  | .glob .cellDB, val => .wr16CellDB val
  | .glob .cellDC, val => .wr16CellDC val
  | .glob .cellDD, val => .wr16CellDD val
  | .glob .cellDE, val => .wr16CellDE val
  | .glob .cellDF, val => .wr16CellDF val
  | .glob .rvbDAPF1, val => .wr16RvbDAPF1 val
  | .glob .rvbDAPF2, val => .wr16RvbDAPF2 val
  | .glob .rvbVIIR, val => .wr16RvbVIIR val
  | .glob .rvbVCOMB1, val => .wr16RvbVCOMB1 val
  | .glob .rvbVCOMB2, val => .wr16RvbVCOMB2 val
  | .glob .rvbVCOMB3, val => .wr16RvbVCOMB3 val
  | .glob .rvbVCOMB4, val => .wr16RvbVCOMB4 val
  | .glob .rvbVWALL, val => .wr16RvbVWALL val
  | .glob .rvbVAPF1, val => .wr16RvbVAPF1 val
  | .glob .rvbVAPF2, val => .wr16RvbVAPF2 val
  | .glob .rvbMLSAME, val => .wr16RvbMLSAME val
  | .glob .rvbMRSAME, val => .wr16RvbMRSAME val
  | .glob .rvbMLCOMB1, val => .wr16RvbMLCOMB1 val
  | .glob .rvbMRCOMB1, val => .wr16RvbMRCOMB1 val
  | .glob .rvbMLCOMB2, val => .wr16RvbMLCOMB2 val
  | .glob .rvbMRCOMB2, val => .wr16RvbMRCOMB2 val
  | .glob .rvbDLSAME, val => .wr16RvbDLSAME val
  | .glob .rvbDRSAME, val => .wr16RvbDRSAME val
  | .glob .rvbMLDIFF, val => .wr16RvbMLDIFF val
  | .glob .rvbMRDIFF, val => .wr16RvbMRDIFF val
  | .glob .rvbMLCOMB3, val => .wr16RvbMLCOMB3 val
  | .glob .rvbMRCOMB3, val => .wr16RvbMRCOMB3 val
  | .glob .rvbMLCOMB4, val => .wr16RvbMLCOMB4 val
  | .glob .rvbMRCOMB4, val => .wr16RvbMRCOMB4 val
  | .glob .rvbDLDIFF, val => .wr16RvbDLDIFF val
  | .glob .rvbDRDIFF, val => .wr16RvbDRDIFF val
  | .glob .rvbMLAPF1, val => .wr16RvbMLAPF1 val
  | .glob .rvbMRAPF1, val => .wr16RvbMRAPF1 val
  | .glob .rvbMLAPF2, val => .wr16RvbMLAPF2 val
  | .glob .rvbMRAPF2, val => .wr16RvbMRAPF2 val
  | .glob .rvbVLIN, val => .wr16RvbVLIN val
  | .glob .rvbVRIN, val => .wr16RvbVRIN val
  | .curVol v .left, val => .wr16VCurvolL v val
  | .curVol v .right, val => .wr16VCurvolR v val
  | .unmapped h, val => .wr16Unmapped h val

/-- The ring policy of a 2-bit code (R129). -/
def policyOfCode (code : BitVec 2) : RingPolicy :=
  match code.toNat with
  | 0 => .dropOldest
  | 1 => .dropNewest
  | 2 => .halveBuffer
  | _ => .reset

/-- The 2-bit code of a ring policy (R129). -/
def policyCode : RingPolicy → BitVec 2
  | .dropOldest => 0
  | .dropNewest => 1
  | .halveBuffer => 2
  | .reset => 3

/-- The command with the given fields (R120, R129); a field a command does not use is ignored. -/
def decodeFields (op : BitVec 4) (boff : ByteOff) (data : BitVec 32) : Instr :=
  match op.toNat with
  | 0x0 => .nop
  | 0x1 => .rd8 boff
  | 0x2 => readRow (LogReg.decode (halfOff boff))
  | 0x3 => .rd32 boff
  | 0x4 => .push (data.extractLsb' 0 16) (data.extractLsb' 16 16)
  | 0x5 => .wr8 boff (data.extractLsb' 0 8)
  | 0x6 => writeRow (LogReg.decode (halfOff boff)) (data.extractLsb' 0 16)
  | 0x7 => .wr32 boff data
  | 0x8 => .dmast data
  | 0x9 => .dmald
  | 0xA => .tick
  | 0xB => .resync data
  | 0xC => .cdin (data.extractLsb' 0 16) (data.extractLsb' 16 16)
  | 0xD => .pop data
  | 0xE => .ringcfg (data.extractLsb' 0 20) (policyOfCode (data.extractLsb' 20 2)) (data.getLsbD 22) boff
  | _ => .reset

/-- Decode a command word (R120). Every word has a meaning (R125), so nothing is rejected. -/
def decode (w : CmdWord) : Instr := decodeFields (w.extractLsb' 44 4) (w.extractLsb' 32 12) (w.extractLsb' 0 32)

/-- Why a number is no command: there is one command length, 48 bits (R121). -/
inductive DecodeReject where
  /-- The number does not fit one 48-bit command word. -/
  | longerThanACommand
  deriving DecidableEq, Repr

/-- Decode a number as one command, rejecting by name a number wider than a command word (R121). -/
def decodeNumber (n : Nat) : Except DecodeReject Instr :=
  if n < 2 ^ 48 then .ok (decode (BitVec.ofNat 48 n)) else .error .longerThanACommand

/-- A command word from its fields (R120). -/
def pack (op : BitVec 4) (boff : ByteOff) (data : BitVec 32) : CmdWord := op ++ boff ++ data

/-- The word of RD16 at a logical register, unused data bits zero. -/
def encodeRead (r : LogReg) : CmdWord := pack 0x2 (byteOff r.offset) 0

/-- The word of WR16 at a logical register, `data[31:16]` zero. -/
def encodeWrite (r : LogReg) (val : Cell) : CmdWord := pack 0x6 (byteOff r.offset) (0#16 ++ val)

/-- The word of a command; bits the command ignores are zero (R120, R129). -/
def encode : Instr → CmdWord
  | .nop => pack 0x0 0 0
  | .rd8 boff => pack 0x1 boff 0
  | .rd16 boff => pack 0x2 boff 0
  | .rd32 boff => pack 0x3 boff 0
  | .push l r => pack 0x4 0 (r ++ l)
  | .wr8 boff b => pack 0x5 boff (0#24 ++ b)
  | .wr16 boff val => pack 0x6 boff (0#16 ++ val)
  | .wr32 boff w => pack 0x7 boff w
  | .dmast w => pack 0x8 0 w
  | .dmald => pack 0x9 0 0
  | .tick => pack 0xA 0 0
  | .resync cycles => pack 0xB 0 cycles
  | .cdin l r => pack 0xC 0 (r ++ l)
  | .pop maxPairs => pack 0xD 0 maxPairs
  | .ringcfg size policy overlay latency => pack 0xE latency (0#9 ++ BitVec.ofBool overlay ++ policyCode policy ++ size)
  | .reset => pack 0xF 0 0
  | .rd16VVolL v => encodeRead (.voice v .volL)
  | .rd16VVolR v => encodeRead (.voice v .volR)
  | .rd16VPitch v => encodeRead (.voice v .pitch)
  | .rd16VStart v => encodeRead (.voice v .start)
  | .rd16VAdsrLo v => encodeRead (.voice v .adsrLo)
  | .rd16VAdsrHi v => encodeRead (.voice v .adsrHi)
  | .rd16VLevel v => encodeRead (.voice v .level)
  | .rd16VRepeat v => encodeRead (.voice v .repeatIx)
  | .rd16MainVolL => encodeRead (.glob .mainVolL)
  | .rd16MainVolR => encodeRead (.glob .mainVolR)
  | .rd16RvbOutL => encodeRead (.glob .rvbOutL)
  | .rd16RvbOutR => encodeRead (.glob .rvbOutR)
  | .rd16KonLo => encodeRead (.glob .konLo)
  | .rd16KonHi => encodeRead (.glob .konHi)
  | .rd16KoffLo => encodeRead (.glob .koffLo)
  | .rd16KoffHi => encodeRead (.glob .koffHi)
  | .rd16FmLo => encodeRead (.glob .fmLo)
  | .rd16FmHi => encodeRead (.glob .fmHi)
  | .rd16NoiseLo => encodeRead (.glob .noiseLo)
  | .rd16NoiseHi => encodeRead (.glob .noiseHi)
  | .rd16RvbEnLo => encodeRead (.glob .rvbEnLo)
  | .rd16RvbEnHi => encodeRead (.glob .rvbEnHi)
  | .rd16EndxLo => encodeRead (.glob .endxLo)
  | .rd16EndxHi => encodeRead (.glob .endxHi)
  | .rd16CellD0 => encodeRead (.glob .cellD0)
  | .rd16RvbBase => encodeRead (.glob .rvbBase)
  | .rd16IrqAddr => encodeRead (.glob .irqAddr)
  | .rd16XferAddr => encodeRead (.glob .xferAddr)
  | .rd16XferFifo => encodeRead (.glob .xferFifo)
  | .rd16Control => encodeRead (.glob .control)
  | .rd16XferCtrl => encodeRead (.glob .xferCtrl)
  | .rd16Status => encodeRead (.glob .status)
  | .rd16CdVolL => encodeRead (.glob .cdVolL)
  | .rd16CdVolR => encodeRead (.glob .cdVolR)
  | .rd16CellDA => encodeRead (.glob .cellDA)
  | .rd16CellDB => encodeRead (.glob .cellDB)
  | .rd16CellDC => encodeRead (.glob .cellDC)
  | .rd16CellDD => encodeRead (.glob .cellDD)
  | .rd16CellDE => encodeRead (.glob .cellDE)
  | .rd16CellDF => encodeRead (.glob .cellDF)
  | .rd16RvbDAPF1 => encodeRead (.glob .rvbDAPF1)
  | .rd16RvbDAPF2 => encodeRead (.glob .rvbDAPF2)
  | .rd16RvbVIIR => encodeRead (.glob .rvbVIIR)
  | .rd16RvbVCOMB1 => encodeRead (.glob .rvbVCOMB1)
  | .rd16RvbVCOMB2 => encodeRead (.glob .rvbVCOMB2)
  | .rd16RvbVCOMB3 => encodeRead (.glob .rvbVCOMB3)
  | .rd16RvbVCOMB4 => encodeRead (.glob .rvbVCOMB4)
  | .rd16RvbVWALL => encodeRead (.glob .rvbVWALL)
  | .rd16RvbVAPF1 => encodeRead (.glob .rvbVAPF1)
  | .rd16RvbVAPF2 => encodeRead (.glob .rvbVAPF2)
  | .rd16RvbMLSAME => encodeRead (.glob .rvbMLSAME)
  | .rd16RvbMRSAME => encodeRead (.glob .rvbMRSAME)
  | .rd16RvbMLCOMB1 => encodeRead (.glob .rvbMLCOMB1)
  | .rd16RvbMRCOMB1 => encodeRead (.glob .rvbMRCOMB1)
  | .rd16RvbMLCOMB2 => encodeRead (.glob .rvbMLCOMB2)
  | .rd16RvbMRCOMB2 => encodeRead (.glob .rvbMRCOMB2)
  | .rd16RvbDLSAME => encodeRead (.glob .rvbDLSAME)
  | .rd16RvbDRSAME => encodeRead (.glob .rvbDRSAME)
  | .rd16RvbMLDIFF => encodeRead (.glob .rvbMLDIFF)
  | .rd16RvbMRDIFF => encodeRead (.glob .rvbMRDIFF)
  | .rd16RvbMLCOMB3 => encodeRead (.glob .rvbMLCOMB3)
  | .rd16RvbMRCOMB3 => encodeRead (.glob .rvbMRCOMB3)
  | .rd16RvbMLCOMB4 => encodeRead (.glob .rvbMLCOMB4)
  | .rd16RvbMRCOMB4 => encodeRead (.glob .rvbMRCOMB4)
  | .rd16RvbDLDIFF => encodeRead (.glob .rvbDLDIFF)
  | .rd16RvbDRDIFF => encodeRead (.glob .rvbDRDIFF)
  | .rd16RvbMLAPF1 => encodeRead (.glob .rvbMLAPF1)
  | .rd16RvbMRAPF1 => encodeRead (.glob .rvbMRAPF1)
  | .rd16RvbMLAPF2 => encodeRead (.glob .rvbMLAPF2)
  | .rd16RvbMRAPF2 => encodeRead (.glob .rvbMRAPF2)
  | .rd16RvbVLIN => encodeRead (.glob .rvbVLIN)
  | .rd16RvbVRIN => encodeRead (.glob .rvbVRIN)
  | .rd16VCurvolL v => encodeRead (.curVol v .left)
  | .rd16VCurvolR v => encodeRead (.curVol v .right)
  | .rd16Unmapped h => encodeRead (.unmapped h)
  | .wr16VVolL v val => encodeWrite (.voice v .volL) val
  | .wr16VVolR v val => encodeWrite (.voice v .volR) val
  | .wr16VPitch v val => encodeWrite (.voice v .pitch) val
  | .wr16VStart v val => encodeWrite (.voice v .start) val
  | .wr16VAdsrLo v val => encodeWrite (.voice v .adsrLo) val
  | .wr16VAdsrHi v val => encodeWrite (.voice v .adsrHi) val
  | .wr16VLevel v val => encodeWrite (.voice v .level) val
  | .wr16VRepeat v val => encodeWrite (.voice v .repeatIx) val
  | .wr16MainVolL val => encodeWrite (.glob .mainVolL) val
  | .wr16MainVolR val => encodeWrite (.glob .mainVolR) val
  | .wr16RvbOutL val => encodeWrite (.glob .rvbOutL) val
  | .wr16RvbOutR val => encodeWrite (.glob .rvbOutR) val
  | .wr16KonLo val => encodeWrite (.glob .konLo) val
  | .wr16KonHi val => encodeWrite (.glob .konHi) val
  | .wr16KoffLo val => encodeWrite (.glob .koffLo) val
  | .wr16KoffHi val => encodeWrite (.glob .koffHi) val
  | .wr16FmLo val => encodeWrite (.glob .fmLo) val
  | .wr16FmHi val => encodeWrite (.glob .fmHi) val
  | .wr16NoiseLo val => encodeWrite (.glob .noiseLo) val
  | .wr16NoiseHi val => encodeWrite (.glob .noiseHi) val
  | .wr16RvbEnLo val => encodeWrite (.glob .rvbEnLo) val
  | .wr16RvbEnHi val => encodeWrite (.glob .rvbEnHi) val
  | .wr16EndxLo val => encodeWrite (.glob .endxLo) val
  | .wr16EndxHi val => encodeWrite (.glob .endxHi) val
  | .wr16CellD0 val => encodeWrite (.glob .cellD0) val
  | .wr16RvbBase val => encodeWrite (.glob .rvbBase) val
  | .wr16IrqAddr val => encodeWrite (.glob .irqAddr) val
  | .wr16XferAddr val => encodeWrite (.glob .xferAddr) val
  | .wr16XferFifo val => encodeWrite (.glob .xferFifo) val
  | .wr16Control val => encodeWrite (.glob .control) val
  | .wr16XferCtrl val => encodeWrite (.glob .xferCtrl) val
  | .wr16Status val => encodeWrite (.glob .status) val
  | .wr16CdVolL val => encodeWrite (.glob .cdVolL) val
  | .wr16CdVolR val => encodeWrite (.glob .cdVolR) val
  | .wr16CellDA val => encodeWrite (.glob .cellDA) val
  | .wr16CellDB val => encodeWrite (.glob .cellDB) val
  | .wr16CellDC val => encodeWrite (.glob .cellDC) val
  | .wr16CellDD val => encodeWrite (.glob .cellDD) val
  | .wr16CellDE val => encodeWrite (.glob .cellDE) val
  | .wr16CellDF val => encodeWrite (.glob .cellDF) val
  | .wr16RvbDAPF1 val => encodeWrite (.glob .rvbDAPF1) val
  | .wr16RvbDAPF2 val => encodeWrite (.glob .rvbDAPF2) val
  | .wr16RvbVIIR val => encodeWrite (.glob .rvbVIIR) val
  | .wr16RvbVCOMB1 val => encodeWrite (.glob .rvbVCOMB1) val
  | .wr16RvbVCOMB2 val => encodeWrite (.glob .rvbVCOMB2) val
  | .wr16RvbVCOMB3 val => encodeWrite (.glob .rvbVCOMB3) val
  | .wr16RvbVCOMB4 val => encodeWrite (.glob .rvbVCOMB4) val
  | .wr16RvbVWALL val => encodeWrite (.glob .rvbVWALL) val
  | .wr16RvbVAPF1 val => encodeWrite (.glob .rvbVAPF1) val
  | .wr16RvbVAPF2 val => encodeWrite (.glob .rvbVAPF2) val
  | .wr16RvbMLSAME val => encodeWrite (.glob .rvbMLSAME) val
  | .wr16RvbMRSAME val => encodeWrite (.glob .rvbMRSAME) val
  | .wr16RvbMLCOMB1 val => encodeWrite (.glob .rvbMLCOMB1) val
  | .wr16RvbMRCOMB1 val => encodeWrite (.glob .rvbMRCOMB1) val
  | .wr16RvbMLCOMB2 val => encodeWrite (.glob .rvbMLCOMB2) val
  | .wr16RvbMRCOMB2 val => encodeWrite (.glob .rvbMRCOMB2) val
  | .wr16RvbDLSAME val => encodeWrite (.glob .rvbDLSAME) val
  | .wr16RvbDRSAME val => encodeWrite (.glob .rvbDRSAME) val
  | .wr16RvbMLDIFF val => encodeWrite (.glob .rvbMLDIFF) val
  | .wr16RvbMRDIFF val => encodeWrite (.glob .rvbMRDIFF) val
  | .wr16RvbMLCOMB3 val => encodeWrite (.glob .rvbMLCOMB3) val
  | .wr16RvbMRCOMB3 val => encodeWrite (.glob .rvbMRCOMB3) val
  | .wr16RvbMLCOMB4 val => encodeWrite (.glob .rvbMLCOMB4) val
  | .wr16RvbMRCOMB4 val => encodeWrite (.glob .rvbMRCOMB4) val
  | .wr16RvbDLDIFF val => encodeWrite (.glob .rvbDLDIFF) val
  | .wr16RvbDRDIFF val => encodeWrite (.glob .rvbDRDIFF) val
  | .wr16RvbMLAPF1 val => encodeWrite (.glob .rvbMLAPF1) val
  | .wr16RvbMRAPF1 val => encodeWrite (.glob .rvbMRAPF1) val
  | .wr16RvbMLAPF2 val => encodeWrite (.glob .rvbMLAPF2) val
  | .wr16RvbMRAPF2 val => encodeWrite (.glob .rvbMRAPF2) val
  | .wr16RvbVLIN val => encodeWrite (.glob .rvbVLIN) val
  | .wr16RvbVRIN val => encodeWrite (.glob .rvbVRIN) val
  | .wr16VCurvolL v val => encodeWrite (.curVol v .left) val
  | .wr16VCurvolR v val => encodeWrite (.curVol v .right) val
  | .wr16Unmapped h val => encodeWrite (.unmapped h) val

/-- The instruction a command's words decode to: RD16 and WR16 become the register row that refines them (R130), every other command
stays itself. -/
def Instr.resolve : Instr → Instr
  | .rd16 boff => readRow (LogReg.decode (halfOff boff))
  | .wr16 boff val => writeRow (LogReg.decode (halfOff boff)) val
  | i => i

/-- The host's entry: the instruction whose bits are `w`, numbered as spec/opcode_table.json numbers the 48-bit command word; bits above
`nbits` are zero. -/
def decodeTableWord (nbits w : Nat) : Option Instr :=
  match decodeNumber (w % 2 ^ nbits) with
  | .ok i => some i
  | .error _ => none

end Sys2Proof
end

