-- ==== Sys2Proof/Machine/Params.lean ====
section
/-!
DEFINITION. The parameter values the model runs with: the defaults of 00_scope.md R11 (assumptions 1 to 3).
-/

namespace Sys2Proof.Machine

/-- WEIGHTS, the default table of R194: five defined entries, the rest (0, 0). -/
def stdWeights (i : BitVec 4) : Int × Int :=
  match i.toNat with
  | 1 => (60, 0)
  | 2 => (115, -52)
  | 3 => (98, -55)
  | 4 => (122, -60)
  | _ => (0, 0)

/-- FIR39, the default 39-tap half-band filter of R314. -/
def stdFir39 : List Int :=
  [-1, 0, 2, 0, -10, 0, 35, 0, -103, 0, 266, 0, -616, 0, 1332, 0, -2960, 0, 10246]
    ++ [16384]
    ++ [10246, 0, -2960, 0, 1332, 0, -616, 0, 266, 0, -103, 0, 35, 0, -10, 0, 2, 0, -1]

/-- The defaults of R11. FIR4 stays the free table; RING_DEFAULT_SIZE is OPEN and takes the suggested 2048 (DESIGN CHOICE, unsafe,
assumption 2). -/
def std : Config where
  clockDiv := 768
  blockWords := 8
  weights := stdWeights
  fifoCap := 16
  fifoDecodeBelow := 11
  fir4 := Config.fir4Table
  fmSource := .preEnvelope
  startDelay := 4
  fir39 := stdFir39
  noiseInvert := true
  ringDefaultSize := 2048
  ringDefaultPolicy := .dropOldest
  halveAdmitsNew := false
  rvbWriteAlways := false
  ramInit := []

end Sys2Proof.Machine
end

