-- ==== Sys2Proof/Machine/Memory.lean ====
section
/-!
DEFINITION. Sparse storage of 16-bit cells in one canonical form, used for sound RAM (R40, R80) and for the ring's sample buffer
(R66): a list of (index, cell) pairs, indices strictly rising, no pair equal to what an unlisted index reads as.
-/

namespace Sys2Proof.Machine

/-- Cells by index. The unit is the 16-bit cell: "no path reads or writes part of a cell" (R80, assumption 6). -/
abbrev Memory := List (Nat × Cell)

namespace Memory

/-- What an unlisted index reads as: zero, the default RAM_INIT (R40) and what RINGCFG fills the ring with (R412). -/
def blank : Cell := 0#16

/-- The cell at an index. -/
def read : Memory → Nat → Cell
  | [], _ => blank
  | (b, y) :: m, a => if a = b then y else read m a

/-- Store a cell at an index, keeping the canonical form: storing the blank value removes the pair. -/
def write : Memory → Nat → Cell → Memory
  | [], a, x => if x = blank then [] else [(a, x)]
  | (b, y) :: m, a, x =>
    if a < b then (if x = blank then (b, y) :: m else (a, x) :: (b, y) :: m)
    else if a = b then (if x = blank then m else (a, x) :: m)
    else (b, y) :: write m a x

/-- Storage that holds the given cells and blank ones elsewhere; of two cells for one index the first counts. -/
def ofCells (l : List (Index × Cell)) : Memory := l.foldr (fun p m => m.write p.1.toNat p.2) []

/-- The canonical form: indices strictly rising and no pair that an unlisted index would read as anyway. -/
abbrev wf (m : Memory) : Prop := m.Pairwise (fun p q => p.1 < q.1) ∧ ∀ p ∈ m, p.2 ≠ blank

/-- Every listed index is below `n`. -/
abbrev below (m : Memory) (n : Nat) : Prop := ∀ p ∈ m, p.1 < n

end Memory

end Sys2Proof.Machine
end

