-- ==== Sys2Proof/Machine/Parts.lean ====
section
/-!
DEFINITION. The types of the state's components: envelope, volume unit, voice (R50), ring buffer (R66), and a command's response (R124).
-/

namespace Sys2Proof.Machine

/-- The four envelope phases (R50, R226). -/
inductive EnvState where
  | attack
  | decay
  | sustain
  | release
  deriving DecidableEq, Repr

/-- An envelope generator (R50, R225). `level` is read signed and never negative (R51). -/
structure Adsr where
  st : EnvState
  level : Sample
  divider : BitVec 16
  deriving DecidableEq, Repr

/-- A volume unit: signed level and rate divider (R256). -/
structure VolUnit where
  level : Sample
  divider : BitVec 16
  deriving DecidableEq, Repr

/-- One of the 24 voices (R50). -/
structure Voice where
  volL : VolUnit
  volR : VolUnit
  adsr : Adsr
  /-- Phase accumulator, 12 fractional bits (R213). -/
  phase : BitVec 16
  /-- The next sound-RAM cell the decoder reads (R36). -/
  curIndex : Index
  loopIndex : Index
  /-- The loop index was written by register (R358). -/
  loopForce : Bool
  /-- The active ADPCM block header (R161). -/
  hdr : Cell
  /-- The last decoded sample. -/
  hist0 : Sample
  /-- The last but one decoded sample. -/
  hist1 : Sample
  /-- The decode FIFO, oldest first (R202). -/
  fifo : List Sample
  startDelay : Nat
  deriving DecidableEq, Repr

/-- The audio output ring buffer (R66, R411). -/
structure Ring where
  /-- N, the size in samples. -/
  size : Nat
  policy : RingPolicy
  buf : Memory
  wr : Nat
  rd : Nat
  fill : Nat
  maxFill : Nat
  totalWritten : Nat
  totalDropped : Nat
  avgSum : Nat
  avgCnt : Nat
  targetLatency : Nat
  debugOverlay : Bool
  deriving DecidableEq, Repr

/-- What a command answers (R124). -/
inductive Response where
  /-- The command has no response. -/
  | none
  /-- RD8. -/
  | byte (b : BitVec 8)
  /-- RD16. -/
  | half (h : Cell)
  /-- RD32, DMALD. -/
  | word (w : BitVec 32)
  /-- PUSH: the boolean of `push_stereo`. -/
  | flag (ok : Bool)
  /-- POP: interleaved samples, left first. -/
  | samples (xs : List Sample)
  /-- RESYNC: the number of ticks run. -/
  | ticks (n : Nat)
  deriving DecidableEq, Repr

end Sys2Proof.Machine
end

