-- ==== Sys2Proof/Machine/Init.lean ====
section
/-!
DEFINITION. Initial values of the state's components: volume unit, voice (R470), and a freshly created ring (R412).
-/

namespace Sys2Proof.Machine

/-- A volume unit after reset: level 0, divider 0 (R470). -/
def VolUnit.zero : VolUnit := { level := 0#16, divider := 0#16 }

/-- A voice after reset (R470): envelope in Release at level 0, everything else zero or empty. -/
def Voice.reset : Voice where
  volL := .zero
  volR := .zero
  adsr := { st := .release, level := 0#16, divider := 0#16 }
  phase := 0#16
  curIndex := 0#18
  loopIndex := 0#18
  loopForce := false
  hdr := 0#16
  hist0 := 0#16
  hist1 := 0#16
  fifo := []
  startDelay := 0

/-- next_pow2: the least power of two that is at least `x`; next_pow2(0) = 1 (R412). -/
def nextPow2 (x : Nat) : Nat := if x ≤ 1 then 1 else 2 ^ (Nat.log2 (x - 1) + 1)

/-- A ring just created for a requested size: empty, statistics zero (R412, R470). -/
def Ring.create (size : Nat) (policy : RingPolicy) (latency : Nat) (overlay : Bool) : Ring where
  size := max 2 (nextPow2 size)
  policy := policy
  buf := []
  wr := 0
  rd := 0
  fill := 0
  maxFill := 0
  totalWritten := 0
  totalDropped := 0
  avgSum := 0
  avgCnt := 0
  targetLatency := latency
  debugOverlay := overlay

end Sys2Proof.Machine
end

