-- ==== Sys2Proof/Machine/State.lean ====
section
/-!
DEFINITION. The state of the machine, all that R30 names, as plain data; the reset state (R470); the (empty) reasons to stop.
-/

namespace Sys2Proof.Machine

/-- The state of the machine (R30), and two fields of the model's own: `port`, the commands issued and not yet executed (assumption 4),
and `resp`, the response of the last command (assumption 5). -/
structure State where
  /-- The register file, `regs[0x00..0xFF]` (R32). -/
  regs : Vector Cell 256
  /-- Sound RAM, cells 0..0x3FFFF (R40). -/
  ram : Memory
  /-- Pending key-on requests (R42). -/
  keyOn : Mask24
  /-- Pending key-off requests (R42). -/
  keyOff : Mask24
  /-- Voice-status mask (R42). -/
  endx : Mask24
  /-- Index of the next transfer access (R42). -/
  xferIndex : Index
  /-- The latched IRQ flag (R42, R442). -/
  irqLatch : Bool
  /-- Capture index (R42, R301). -/
  capIndex : BitVec 9
  /-- Noise first-stage counter (R270). -/
  nCnt1 : BitVec 16
  /-- Noise second-stage counter (R270). -/
  nCnt2 : BitVec 8
  /-- Noise shift register (R270). -/
  lfsr : BitVec 16
  /-- Main-volume units MV[L] and MV[R] (R42, R256). -/
  mvL : VolUnit
  mvR : VolUnit
  /-- Host cycles carried to the next RESYNC (R455). -/
  resyncAcc : Nat
  /-- The 24 voices (R50). -/
  voices : Vector Voice 24
  /-- The reverb's rolling cursor (R60, R313). -/
  rvCursor : Index
  /-- The channel this tick's reverb processes: false left, true right (R60). -/
  rvPhase : Bool
  /-- Downsampler histories, index 38 newest (R60). -/
  dsL : Vector Sample 39
  dsR : Vector Sample 39
  /-- Upsampler histories, index 38 newest (R60). -/
  usL : Vector Sample 39
  usR : Vector Sample 39
  /-- The output ring buffer (R66). -/
  ring : Ring
  /-- cd_latch: the CD-audio pair the next tick uses (R70). -/
  cdL : Sample
  cdR : Sample
  /-- The model's own: command words issued and not yet executed, next first. -/
  port : List CmdWord
  /-- The model's own: the response of the last command. -/
  resp : Response
  deriving DecidableEq, Repr

/-- Why the machine stops with a fault. There is no reason: "The block raises no synchronous exception, fault or trap" (R440). No
constructor, so no meaning can raise one; safe. -/
inductive Fault where
  deriving DecidableEq, Repr

/-- Why an instruction is refused. -/
inductive Refusal where
  /-- Raised only by an arm of exec whose instruction has no meaning yet; none is left. Safe: the run stops. -/
  | notModelled (mnemonic : String)
  deriving DecidableEq, Repr

/-- The state every rule's RESET leaves, for given parameters (R470, R471). `lfsr` starts at 0 for every NOISE_INVERT: with 0 the generator
stays silent, which 93_implementation_defined.md U24 lets a model accept (DESIGN CHOICE, assumption 15; R273). -/
def State.resetWith (c : Config) : State where
  regs := Vector.replicate 256 0#16
  ram := .ofCells c.ramInit
  keyOn := 0#24
  keyOff := 0#24
  endx := 0#24
  xferIndex := 0#18
  irqLatch := false
  capIndex := 0#9
  nCnt1 := 0#16
  nCnt2 := 0#8
  lfsr := 0#16
  mvL := .zero
  mvR := .zero
  resyncAcc := 0
  voices := Vector.replicate 24 Voice.reset
  rvCursor := 0#18
  rvPhase := false
  dsL := Vector.replicate 39 0#16
  dsR := Vector.replicate 39 0#16
  usL := Vector.replicate 39 0#16
  usR := Vector.replicate 39 0#16
  ring := Ring.create c.ringDefaultSize c.ringDefaultPolicy 0 false
  cdL := 0#16
  cdR := 0#16
  port := []
  resp := .none

/-- The machine right after reset (R470). -/
def State.reset : State := State.resetWith std

end Sys2Proof.Machine
end

