-- ==== Sys2Proof/Machine/Operands.lean ====
section
/-!
DEFINITION. The arithmetic primitives of 40_arith.md, reads of cells and voices, and the fields and views of the words the block
interprets (30_encoding.md section 3, 10_state.md R44 to R46).
-/

namespace Sys2Proof.Machine

/-- Saturation to 16 bits (R172). -/
def sat16 (x : Int) : Int := min 32767 (max (-32768) x)

/-- `min(hi, max(lo, x))` (R173). -/
def clamp (x lo hi : Int) : Int := min hi (max lo x)

/-- Arithmetic shift right, rounding toward minus infinity (R174). -/
def asr (x : Int) (n : Nat) : Int := x / 2 ^ n

/-- `x * 2^n` over the integers (R175). -/
def lsl (x : Int) (n : Nat) : Int := x * 2 ^ n

/-- The cell that holds `x` modulo 65536 (R176). -/
def u16 (x : Int) : Cell := BitVec.ofInt 16 x

/-- The signed reading of a cell (R176). -/
def s16 (w : Cell) : Int := w.toInt

/-- The signed shift-based multiply (R177). -/
def mul15 (a b : Int) : Int := asr (a * b) 15

/-- The division by 64 of the ADPCM reconstruction, a floor (R178). -/
def div64 (a : Int) : Int := asr a 6

/-- The index an address cell holds, `lsl(word, 2)` (R45, R165). -/
def indexOf (w : Cell) : Index := w ++ 0#2

/-- `i AND NOT 7`: aligned down to a multiple of 8 (R82). -/
def alignDown8 (i : Index) : Index := i &&& 0x3FFF8#18

/-- `v[lo+n-1 : lo]` as an unsigned number (R12). -/
def field {w : Nat} (v : BitVec w) (lo n : Nat) : Nat := (v.extractLsb' lo n).toNat

/-- Register cell `regs[h]` (R14). -/
def State.reg (s : State) (h : CellId) : Cell := s.regs.get h

/-- Voice record `V[v]` (R14). -/
def State.voice (s : State) (v : VoiceId) : Voice := s.voices.get v

/-- Register cell r of voice v (R33). -/
def State.voiceReg (s : State) (v : VoiceId) (r : VReg) : Cell := s.reg (voiceCell v r)

/-- Sound-RAM cell `ram[i]`, unwatched (R14, R88). -/
def State.ramAt (s : State) (i : Index) : Cell := s.ram.read i.toNat

/-- CONTROL bit 15: voices sound (R46, R168). -/
def State.spuEnable (s : State) : Bool := (s.reg 0xD5).getLsbD 15

/-- CONTROL bit 14: voices are not muted (R46, R168). -/
def State.unmute (s : State) : Bool := (s.reg 0xD5).getLsbD 14

/-- CONTROL bits 13..10 (R46, R271). -/
def State.noiseShift (s : State) : Nat := field (s.reg 0xD5) 10 4

/-- CONTROL bits 9..8 (R46, R271). -/
def State.noiseStep (s : State) : Nat := field (s.reg 0xD5) 8 2

/-- CONTROL bit 7: reverb writes happen (R46, R317). -/
def State.rvbWriteEn (s : State) : Bool := (s.reg 0xD5).getLsbD 7

/-- CONTROL bit 6: the watchdog is armed (R46, R442). -/
def State.irqEn (s : State) : Bool := (s.reg 0xD5).getLsbD 6

/-- CONTROL bits 5..4 (R46, R168). -/
def State.xferMode (s : State) : Nat := field (s.reg 0xD5) 4 2

/-- CONTROL bit 2: CD audio also feeds the reverb (R46, R299). -/
def State.cdRvb (s : State) : Bool := (s.reg 0xD5).getLsbD 2

/-- CONTROL bit 0: CD audio is mixed (R46, R299). -/
def State.cdEn (s : State) : Bool := (s.reg 0xD5).getLsbD 0

/-- CONTROL bit 3, stored and without effect (R168). -/
def State.extRvb (s : State) : Bool := (s.reg 0xD5).getLsbD 3

/-- CONTROL bit 1, stored and without effect (R168). -/
def State.extEn (s : State) : Bool := (s.reg 0xD5).getLsbD 1

/-- The 24-bit mask of a HI and a LO cell (R44). -/
def mask24 (hi lo : Cell) : Mask24 := hi.extractLsb' 0 8 ++ lo

/-- `fm_en`: bit 0 forced to 0 (R44). -/
def State.fmEn (s : State) : Mask24 := mask24 (s.reg 0xC9) (s.reg 0xC8) &&& ~~~1#24

/-- `noise_en` (R44). -/
def State.noiseEn (s : State) : Mask24 := mask24 (s.reg 0xCB) (s.reg 0xCA)

/-- `rev_en` (R44). -/
def State.revEn (s : State) : Mask24 := mask24 (s.reg 0xCD) (s.reg 0xCC)

/-- `irq_index` (R45). -/
def State.irqIndex (s : State) : Index := indexOf (s.reg 0xD2)

/-- `rv_base` (R45, R312). -/
def State.rvBase (s : State) : Index := indexOf (s.reg 0xD1)

/-- `V[v].start_index` (R45). -/
def State.startIndex (s : State) (v : VoiceId) : Index := indexOf (s.voiceReg v .start)

/-- The ADSR configuration word, ADSR_HI in the high half (R50, R162). -/
def State.adsrCfg (s : State) (v : VoiceId) : BitVec 32 := s.voiceReg v .adsrHi ++ s.voiceReg v .adsrLo

/-- ADPCM header bits 3..0: shift (R161). -/
def hdrShift (hdr : Cell) : Nat := field hdr 0 4

/-- ADPCM header bits 7..4: filter-weight index (R161). -/
def hdrWidx (hdr : Cell) : BitVec 4 := hdr.extractLsb' 4 4

/-- ADPCM header bit 8: the block is the last before a loop (R161). -/
def hdrLoopEnd (hdr : Cell) : Bool := hdr.getLsbD 8

/-- ADPCM header bit 9: keep playing after the loop (R161). -/
def hdrLoopRepeat (hdr : Cell) : Bool := hdr.getLsbD 9

/-- ADPCM header bit 10: the block is the loop target (R161). -/
def hdrLoopStart (hdr : Cell) : Bool := hdr.getLsbD 10

end Sys2Proof.Machine
end

