-- ==== Sys2Proof/Machine/Flags.lean ====
section
/-!
DEFINITION. The status flags of R37: the IRQ watchdog's latch (R442 to R447), the voice-status mask, the key latches, and the STATUS
word (R169). The block takes no exception: "it saves nothing, changes no mode, vectors nowhere" (R449); `irqCheck` is all that an event does.
-/

namespace Sys2Proof.Machine

/-- The watchdog's comparator: it sets the latch and never clears it (R444). -/
def irqCheck (i : Index) (s : State) : State :=
  if s.irqEn && i == s.irqIndex then { s with irqLatch := true } else s

/-- The IRQ output line is level: it is the latch (R446). -/
def State.irqOut (s : State) : Bool := s.irqLatch

/-- Acknowledge: clear the latch (R447). -/
def irqClear (s : State) : State := { s with irqLatch := false }

/-- The one-bit mask of a voice (R167). -/
def voiceBit (v : VoiceId) : Mask24 := 1#24 <<< v.val

/-- `endx[v] <- 1` (R203). -/
def setEndx (v : VoiceId) (s : State) : State := { s with endx := s.endx ||| voiceBit v }

/-- `endx[v] <- 0` (R293). -/
def clearEndx (v : VoiceId) (s : State) : State := { s with endx := s.endx &&& ~~~voiceBit v }

/-- `key_on <- key_on OR mask` (R362). -/
def latchKeyOn (mask : Mask24) (s : State) : State := { s with keyOn := s.keyOn ||| mask }

/-- `key_off <- key_off OR mask` (R363). -/
def latchKeyOff (mask : Mask24) (s : State) : State := { s with keyOff := s.keyOff ||| mask }

/-- The mask a LO cell's value selects: voices 0..15 (R362). -/
def maskLo (val : Cell) : Mask24 := 0#8 ++ val

/-- The mask a HI cell's value selects: voices 16..23 from its low 8 bits (R362). -/
def maskHi (val : Cell) : Mask24 := val.extractLsb' 0 8 ++ 0#16

/-- The STATUS word, from bit 15 down: four zeros, cap_index[8], busy (0), xfer_mode = 3, xfer_mode = 2, CONTROL[5], irq_latch,
CONTROL[5:0] (R169). -/
def statusWord (s : State) : Cell :=
  0#4 ++ BitVec.ofBool (s.capIndex.getLsbD 8) ++ 0#1 ++ BitVec.ofBool (s.xferMode == 3) ++ BitVec.ofBool (s.xferMode == 2)
    ++ BitVec.ofBool ((s.reg 0xD5).getLsbD 5) ++ BitVec.ofBool s.irqLatch ++ (s.reg 0xD5).extractLsb' 0 6

end Sys2Proof.Machine
end

