-- ==== Sys2Proof/Machine/Ops.lean ====
section
/-!
DEFINITION. The named operations over registers, voices, sound RAM and the decode FIFO that every meaning uses. No operation can fail
(R440); taking an exception and returning from one do not exist on this block (R449, R450).
-/

namespace Sys2Proof.Machine

/-- `regs[h] <- val` (R14). -/
def State.setReg (s : State) (h : CellId) (val : Cell) : State := { s with regs := s.regs.set h.val val h.isLt }

/-- Replace voice record v. -/
def State.setVoice (s : State) (v : VoiceId) (V : Voice) : State := { s with voices := s.voices.set v.val V v.isLt }

/-- Change voice record v. -/
def State.modVoice (s : State) (v : VoiceId) (f : Voice → Voice) : State := s.setVoice v (f (s.voice v))

/-- Answer a response (R124). -/
def State.respond (s : State) (r : Response) : State := { s with resp := r }

/-- `MemRead(i, 1)`: the watched read of one cell (R86). -/
def memRead (i : Index) (s : State) : Cell × State := (s.ramAt i, irqCheck i s)

/-- `MemWrite(i, 1, x)`: the watched write of one cell (R87). -/
def memWrite (i : Index) (x : Cell) (s : State) : State :=
  let s1 := irqCheck i s
  { s1 with ram := s1.ram.write i.toNat x }

/-- `xfer_index <- (xfer_index + 1) AND 0x3FFFF` (R372). -/
def bumpXfer (s : State) : State := { s with xferIndex := s.xferIndex + 1 }

/-- A watched write at the transfer index, which then advances (R372, R386). -/
def xferPut (x : Cell) (s : State) : State := bumpXfer (memWrite s.xferIndex x s)

/-- `fifo_push`: append a sample (R202). -/
def fifoPush (x : Sample) (V : Voice) : Voice := { V with fifo := V.fifo ++ [x] }

/-- `fifo_peek`: the k-th oldest sample, 0 if there is none (R202). -/
def fifoPeek (V : Voice) (k : Nat) : Sample := V.fifo.getD k 0#16

/-- `fifo_discard`: drop the oldest samples (R202). -/
def fifoDiscard (n : Nat) (V : Voice) : Voice := { V with fifo := V.fifo.drop n }

/-- `fifo_clear` (R202). -/
def fifoClear (V : Voice) : Voice := { V with fifo := [] }

end Sys2Proof.Machine
end

