-- ==== Sys2Proof/Machine/Bus.lean ====
section
/-!
DEFINITION. Register access by logical register (48_bus_regs.md sections 1 to 4), the other access widths (section 5), and the transfer
and housekeeping commands (section 6).
-/

namespace Sys2Proof.Machine

/-- V_LEVEL: store, and set the live level clamped to 0..0x7FFF (R357). -/
def writeVLevel (v : VoiceId) (val : Cell) (s : State) : State :=
  (s.setReg (voiceCell v .level) val).modVoice v fun V =>
    { V with adsr := { V.adsr with level := u16 (clamp (s16 val) 0 0x7FFF) } }

/-- V_REPEAT: store, and override the loop index (R358). -/
def writeVRepeat (v : VoiceId) (val : Cell) (s : State) : State :=
  (s.setReg (voiceCell v .repeatIx) val).modVoice v fun V => { V with loopIndex := indexOf val, loopForce := true }

/-- RVB_BASE: store, and move the cursor to the new base (R369). -/
def writeRvbBase (val : Cell) (s : State) : State := { s.setReg 0xD1 val with rvCursor := indexOf val }

/-- IRQ_ADDR: store, then check the transfer index against the new address (R370). -/
def writeIrqAddr (val : Cell) (s : State) : State := irqCheck s.xferIndex (s.setReg 0xD2 val)

/-- XFER_ADDR: store, and set the transfer index (R371). -/
def writeXferAddr (val : Cell) (s : State) : State := { s.setReg 0xD3 val with xferIndex := indexOf val }

/-- XFER_FIFO: store, and put the word into sound RAM at the transfer index (R372). -/
def writeXferFifo (val : Cell) (s : State) : State := xferPut val (s.setReg 0xD4 val)

/-- CONTROL: store; with bit 6 set check the transfer index, else clear the latch (R373). -/
def writeControl (val : Cell) (s : State) : State :=
  let s1 := s.setReg 0xD5 val
  if val.getLsbD 6 then irqCheck s1.xferIndex s1 else irqClear s1

/-- A 16-bit write of a global register (R359 to R378); "Unless a rule says otherwise a write first stores" (R350). -/
def writeGlob (g : GReg) (val : Cell) (s : State) : State :=
  match g with
  | .konLo => latchKeyOn (maskLo val) (s.setReg 0xC4 val)
  | .konHi => latchKeyOn (maskHi val) (s.setReg 0xC5 val)
  | .koffLo => latchKeyOff (maskLo val) (s.setReg 0xC6 val)
  | .koffHi => latchKeyOff (maskHi val) (s.setReg 0xC7 val)
  | .endxLo => s
  | .endxHi => s
  | .rvbBase => writeRvbBase val s
  | .irqAddr => writeIrqAddr val s
  | .xferAddr => writeXferAddr val s
  | .xferFifo => writeXferFifo val s
  | .control => writeControl val s
  | .status => s
  | g => s.setReg g.cell val

/-- A 16-bit write of a logical register (R350). -/
def writeReg (r : LogReg) (val : Cell) (s : State) : State :=
  match r with
  | .voice v .level => writeVLevel v val s
  | .voice v .repeatIx => writeVRepeat v val s
  | .voice v r => s.setReg (voiceCell v r) val
  | .glob g => writeGlob g val s
  | .curVol _ _ => s
  | .unmapped _ => s

/-- V_LEVEL reads the live envelope level (R357). -/
def readVLevel (v : VoiceId) (s : State) : Cell := (s.voice v).adsr.level

/-- V_REPEAT reads the live loop index, divided by 4 (R358). -/
def readVRepeat (v : VoiceId) (s : State) : Cell := (s.voice v).loopIndex.extractLsb' 2 16

/-- ENDX_LO (R367). -/
def readEndxLo (s : State) : Cell := s.endx.extractLsb' 0 16

/-- ENDX_HI, zero-extended (R367). -/
def readEndxHi (s : State) : Cell := 0#8 ++ s.endx.extractLsb' 16 8

/-- V_CURVOL_L and V_CURVOL_R read the live volume level (R379, R263). -/
def readCurVol (v : VoiceId) (side : Side) (s : State) : Cell :=
  match side with
  | .left => (s.voice v).volL.level
  | .right => (s.voice v).volR.level

/-- A 16-bit read of a global register (R359 to R378); unless a rule says otherwise it "returns `regs[h]`" (R350). -/
def readGlob (g : GReg) (s : State) : Cell :=
  match g with
  | .endxLo => readEndxLo s
  | .endxHi => readEndxHi s
  | .status => statusWord s
  | g => s.reg g.cell

/-- A 16-bit read of a logical register, without side effect (R350, R381). -/
def readReg (r : LogReg) (s : State) : Cell :=
  match r with
  | .voice v .level => readVLevel v s
  | .voice v .repeatIx => readVRepeat v s
  | .voice v r => s.reg (voiceCell v r)
  | .glob g => readGlob g s
  | .curVol v side => readCurVol v side s
  | .unmapped _ => 0#16

/-- The value of `RD16 boff` (R381). -/
def read16 (boff : ByteOff) (s : State) : Cell := readReg (LogReg.decode (halfOff boff)) s

/-- The effect of `WR16 boff, val` (R350). -/
def write16 (boff : ByteOff) (val : Cell) (s : State) : State := writeReg (LogReg.decode (halfOff boff)) val s

/-- `boff AND 0xFFC`: the low cell of a 32-bit access (R122, R384). -/
def wordBase (boff : ByteOff) : ByteOff := boff &&& 0xFFC#12

/-- The byte lane of a 16-bit read (R382). -/
def byteLane (boff : ByteOff) (h : Cell) : BitVec 8 := if boff.getLsbD 0 then h.extractLsb' 8 8 else h.extractLsb' 0 8

/-- The value of `RD32 boff`: the high cell above the low one (R384). -/
def read32 (boff : ByteOff) (s : State) : BitVec 32 := read16 (wordBase boff + 2) s ++ read16 (wordBase boff) s

/-- The effect of `WR32 boff, w`: low cell, then high cell (R385). -/
def write32 (boff : ByteOff) (w : BitVec 32) (s : State) : State :=
  write16 (wordBase boff + 2) (w.extractLsb' 16 16) (write16 (wordBase boff) (w.extractLsb' 0 16) s)

/-- NOP (R388). -/
def execNop (s : State) : Host.Outcome State Fault Refusal := .next s

/-- RD8 (R382). -/
def execRd8 (boff : ByteOff) (s : State) : Host.Outcome State Fault Refusal :=
  .next (s.respond (.byte (byteLane boff (read16 boff s))))

/-- RD16 (R381). -/
def execRd16 (boff : ByteOff) (s : State) : Host.Outcome State Fault Refusal := .next (s.respond (.half (read16 boff s)))

/-- RD32 (R384). -/
def execRd32 (boff : ByteOff) (s : State) : Host.Outcome State Fault Refusal := .next (s.respond (.word (read32 boff s)))

/-- WR8: an even offset writes the zero-extended byte, an odd one is ignored (R383). -/
def execWr8 (boff : ByteOff) (b : BitVec 8) (s : State) : Host.Outcome State Fault Refusal :=
  .next (if boff.getLsbD 0 then s else write16 boff (0#8 ++ b) s)

/-- WR16 (R350). -/
def execWr16 (boff : ByteOff) (val : Cell) (s : State) : Host.Outcome State Fault Refusal := .next (write16 boff val s)

/-- WR32 (R385). -/
def execWr32 (boff : ByteOff) (w : BitVec 32) (s : State) : Host.Outcome State Fault Refusal := .next (write32 boff w s)

/-- DMAST: two watched writes, low half first (R386). -/
def execDmast (w : BitVec 32) (s : State) : Host.Outcome State Fault Refusal :=
  .next (xferPut (w.extractLsb' 16 16) (xferPut (w.extractLsb' 0 16) s))

/-- The 32-bit word DMALD reads: the cell at the transfer index in the low half, the next in the high half (R387). -/
def dmaWord (s : State) : BitVec 32 := s.ramAt (s.xferIndex + 1) ++ s.ramAt s.xferIndex

/-- DMALD: two unwatched reads, then one check of the advanced index (R387). -/
def execDmald (s : State) : Host.Outcome State Fault Refusal :=
  let s1 := bumpXfer (bumpXfer s)
  .next ((irqCheck s1.xferIndex s1).respond (.word (dmaWord s)))

/-- CDIN (R389). -/
def execCdin (l r : Sample) (s : State) : Host.Outcome State Fault Refusal := .next { s with cdL := l, cdR := r }

/-- RESET: every piece of the spec's state to its reset value; the commands not yet executed stay issued (R470, assumption 4). -/
def execReset (s : State) : Host.Outcome State Fault Refusal := .next { State.reset with port := s.port }

end Sys2Proof.Machine
end

