-- ==== Sys2Proof/Machine/Adsr.lean ====
section
/-!
DEFINITION. The ADSR envelope generator (43_adsr.md).
-/

namespace Sys2Proof.Machine

/-- How a level moves: Linear, Exponential, or SmoothUp with the pair used from level 0x6000 on (R228). -/
inductive EnvMode where
  | linear
  | exponential
  | smoothUp (d2 : Nat) (l2 : Int)
  deriving DecidableEq, Repr

/-- A parameter set (divider_step, level_step, mode) (R225, R228). -/
structure EnvParams where
  d : Nat
  l : Int
  mode : EnvMode
  deriving DecidableEq, Repr

/-- `steps(shift, step)`: the pair (divider_step, level_step) (R227). -/
def steps (shift : Nat) (step : Int) : Nat × Int :=
  if shift < 11 then (0x8000, lsl step (11 - shift)) else (max 1 (0x8000 / 2 ^ (shift - 11)), step)

/-- A linear parameter set. -/
def linearParams (shift : Nat) (step : Int) : EnvParams :=
  { d := (steps shift step).1, l := (steps shift step).2, mode := .linear }

/-- An exponential (falling) parameter set. -/
def expParams (shift : Nat) (step : Int) : EnvParams :=
  { d := (steps shift step).1, l := (steps shift step).2, mode := .exponential }

/-- A SmoothUp parameter set: the second pair is that of a shift larger by 2 (R228). -/
def smoothUpParams (shift : Nat) (step : Int) : EnvParams :=
  { d := (steps shift step).1, l := (steps shift step).2
    mode := .smoothUp (steps (shift + 2) step).1 (steps (shift + 2) step).2 }

/-- `params(cfg, state)` with the fields of R162 (R228). -/
def adsrParams (cfg : BitVec 32) : EnvState → EnvParams
  | .attack =>
    if cfg.getLsbD 15 then smoothUpParams (field cfg 10 5) (7 - field cfg 8 2)
    else linearParams (field cfg 10 5) (7 - field cfg 8 2)
  | .decay => expParams (field cfg 4 4) (-8)
  | .sustain =>
    if cfg.getLsbD 30 then
      if cfg.getLsbD 31 then expParams (field cfg 24 5) (-8 + field cfg 22 2)
      else linearParams (field cfg 24 5) (-8 + field cfg 22 2)
    else
      if cfg.getLsbD 31 then smoothUpParams (field cfg 24 5) (7 - field cfg 22 2)
      else linearParams (field cfg 24 5) (7 - field cfg 22 2)
  | .release =>
    if cfg.getLsbD 21 then expParams (field cfg 16 5) (-8) else linearParams (field cfg 16 5) (-8)

/-- The sustain threshold (R230). -/
def sustainLevel (cfg : BitVec 32) : Int := min 0x7FFF ((field cfg 0 4 + 1) * 0x800)

/-- The effective divider step at a level (R231). -/
def divStep (p : EnvParams) (level : Int) : Nat :=
  match p.mode with
  | .smoothUp d2 _ => if 0x6000 ≤ level then d2 else p.d
  | _ => p.d

/-- The effective level step at a level (R231). -/
def lvlStep (p : EnvParams) (level : Int) : Int :=
  match p.mode with
  | .linear => p.l
  | .exponential => asr (p.l * max level 0) 15
  | .smoothUp _ l2 => if 0x6000 ≤ level then l2 else p.l

/-- The state after a cycle that set the level to `new` (R226, R232). -/
def adsrNextState (cfg : BitVec 32) (st : EnvState) (new : Int) : EnvState :=
  match st with
  | .attack => if new = 0x7FFF then .decay else .attack
  | .decay => if new ≤ sustainLevel cfg then .sustain else .decay
  | .sustain => .sustain
  | .release => .release

/-- `adsr_tick`: one envelope cycle (R232). -/
def adsrTick (cfg : BitVec 32) (A : Adsr) : Adsr :=
  let p := adsrParams cfg A.st
  let level := s16 A.level
  let d := min 0xFFFF (A.divider.toNat + divStep p level)
  if d < 0x8000 then { A with divider := BitVec.ofNat 16 d }
  else
    let new := clamp (level + lvlStep p level) 0 0x7FFF
    { st := adsrNextState cfg A.st new, level := u16 new, divider := BitVec.ofNat 16 (d - 0x8000) }

/-- `adsr_attack`: resets divider, state and level (R240). -/
def adsrAttack (_ : Adsr) : Adsr := { st := .attack, level := 0#16, divider := 0#16 }

/-- `adsr_release`: resets the divider and switches state, keeping the level (R241). -/
def adsrRelease (A : Adsr) : Adsr := { A with st := .release, divider := 0#16 }

/-- Release at level 0: release-and-mute (R204) and the SPU-disable mute (R294). -/
def adsrMute (A : Adsr) : Adsr := { adsrRelease A with level := 0#16 }

end Sys2Proof.Machine
end

