-- ==== Sys2Proof/Machine/Adpcm.lean ====
section
/-!
DEFINITION. The ADPCM decoder of a voice (41_adpcm.md).
-/

namespace Sys2Proof.Machine

/-- `expand(n, shift)`: a 4-bit code at bits 15..12, shifted right (R192). -/
def expand (n : BitVec 4) (shift : Nat) : Int := asr (s16 (n ++ 0#12)) shift

/-- The shift clamp: shifts above 12 keep the codes' sign bits and shift by 8 (R193). -/
def shiftClamp (shift : Nat) (w : Cell) : Nat × Cell := if 12 < shift then (8, w &&& 0x8888#16) else (shift, w)

/-- The sample reconstructed from a pre-filter value, before it is narrowed (R195). -/
def predict (c : Config) (hdr : Cell) (hist0 hist1 : Sample) (t : Int) : Int :=
  let wt := c.weights (hdrWidx hdr)
  sat16 (t + div64 (s16 hist0 * wt.1) + div64 (s16 hist1 * wt.2))

/-- `reconstruct(t)`: push one sample and slide the history (R195). -/
def reconstruct (c : Config) (t : Int) (V : Voice) : Voice :=
  let x := u16 (predict c V.hdr V.hist0 V.hist1 t)
  { fifoPush x V with hist1 := V.hist0, hist0 := x }

/-- `decode_cell(v, w)`: four samples, lowest code first (R199). -/
def decodeCell (c : Config) (w : Cell) (V : Voice) : Voice :=
  let k := shiftClamp (hdrShift V.hdr) w
  let code := fun (j : Nat) => expand (k.2.extractLsb' (4 * j) 4) k.1
  reconstruct c (code 3) (reconstruct c (code 2) (reconstruct c (code 1) (reconstruct c (code 0) V)))

/-- `cur_index AND 7 = 0`: the next cell starts a block (R190). -/
def atBlockStart (V : Voice) : Bool := V.curIndex.extractLsb' 0 3 == 0#3

/-- `release_and_mute(v)` (R204). -/
def releaseAndMute (v : VoiceId) (s : State) : State := s.modVoice v fun V => { V with adsr := adsrMute V.adsr }

/-- `loop_action(v)`, on the header of the block just finished (R203). -/
def loopAction (v : VoiceId) (s : State) : State :=
  let V := s.voice v
  if hdrLoopEnd V.hdr then
    let s1 := setEndx v (s.modVoice v fun V => { V with curIndex := alignDown8 V.loopIndex })
    if hdrLoopRepeat V.hdr then s1 else releaseAndMute v s1
  else s

/-- The decoder's checks of an index, raw and masked to an 8-cell boundary (R198). -/
def decoderCheck (i : Index) (s : State) : State :=
  if s.irqEn then irqCheck (alignDown8 i) (irqCheck i s) else s

/-- `header_capture(v)`: the header just read stands at `cur_index` (R200). -/
def headerCapture (V : Voice) : Voice :=
  if hdrLoopStart V.hdr && !V.loopForce then { V with loopIndex := V.curIndex } else V

/-- Fetch the header: unwatched read, capture, advance (R196, R201). -/
def fetchHeader (v : VoiceId) (s : State) : State :=
  s.modVoice v fun V =>
    let V1 := headerCapture { V with hdr := s.ramAt V.curIndex }
    { V1 with curIndex := V1.curIndex + 1 }

/-- Fetch and decode one data cell (R196, R199, R201). -/
def fetchData (c : Config) (v : VoiceId) (s : State) : State :=
  s.modVoice v fun V => decodeCell c (s.ramAt V.curIndex) { V with curIndex := V.curIndex + 1 }

/-- The decoding half of `decoder_step`: at a block start loop and fetch the header, then one data cell (R196). -/
def decodeNext (c : Config) (v : VoiceId) (s : State) : State :=
  if atBlockStart (s.voice v) then
    let s1 := loopAction v s
    fetchData c v (fetchHeader v (decoderCheck (s1.voice v).curIndex s1))
  else fetchData c v (decoderCheck (s.voice v).curIndex s)

/-- `decoder_step(v)` (R196). -/
def decoderStep (c : Config) (v : VoiceId) (s : State) : State :=
  if c.fifoDecodeBelow ≤ (s.voice v).fifo.length then decoderCheck ((s.voice v).curIndex - 1) s
  else decodeNext c v s

/-- `decoder_restart(v)`: the decoder's part of key-on; `loop_index` is kept (R197). -/
def decoderRestart (startIndex : Index) (V : Voice) : Voice :=
  fifoClear { V with curIndex := alignDown8 startIndex, hdr := 0#16, hist0 := 0#16, hist1 := 0#16, loopForce := false }

end Sys2Proof.Machine
end

