-- ==== Sys2Proof/Machine/Noise.lean ====
section
/-!
DEFINITION. The shared LFSR noise generator (45_noise.md).
-/

namespace Sys2Proof.Machine

/-- First-stage increment (R271). -/
def noiseInc1 (shift : Nat) : Nat := if shift = 15 then 0x8000 else 2 * 2 ^ shift

/-- Second-stage increment (R271). -/
def noiseInc2 (shift step : Nat) : Nat := if shift = 15 then 8 else 4 + step

/-- One shift of the register: the taps' parity, inverted if NOISE_INVERT, into bit 0 (R272, R273). -/
def lfsrNext (c : Config) (x : BitVec 16) : BitVec 16 :=
  let fb := (x.getLsbD 15 ^^ x.getLsbD 12 ^^ x.getLsbD 11 ^^ x.getLsbD 10) ^^ c.noiseInvert
  x <<< 1 ||| (0#15 ++ BitVec.ofBool fb)

/-- The second stage: on overflow (bit 3) keep its low three bits and shift the register (R272). -/
def noiseStage2 (c : Config) (s : State) : State :=
  let n2 := s.nCnt2 + BitVec.ofNat 8 (noiseInc2 s.noiseShift s.noiseStep)
  if n2.getLsbD 3 then { s with nCnt2 := n2 &&& 7#8, lfsr := lfsrNext c s.lfsr } else { s with nCnt2 := n2 }

/-- `noise_cycle()` (R272). -/
def noiseCycle (c : Config) (s : State) : State :=
  let n1 := s.nCnt1 + BitVec.ofNat 16 (noiseInc1 s.noiseShift)
  if n1.getLsbD 15 then noiseStage2 c { s with nCnt1 := 0#16 } else { s with nCnt1 := n1 }

end Sys2Proof.Machine
end

