-- ==== Sys2Proof/Machine/Resampler.lean ====
section
/-!
DEFINITION. The pitch resampler of a voice (42_resampler.md).
-/

namespace Sys2Proof.Machine

/-- The product of a coefficient and a sample; the zero test changes no value and lets a zero sample be evaluated whatever the free
table FIR4 holds. -/
def tap (k x : Int) : Int := if x = 0 then 0 else k * x

/-- `interpolate(v)`: the four-tap filter over the four oldest samples, row `phase[11:4]` (R212, R213). -/
def interpolate (c : Config) (V : Voice) : Int :=
  let i := V.phase.extractLsb' 4 8
  let term := fun (k : Fin 4) => tap (s16 (c.fir4 i k)) (s16 (fifoPeek V k.val))
  sat16 (asr (term 0 + term 1 + term 2 + term 3) 15)

/-- The modulated pitch (R214). -/
def modulate (p : Nat) (fmPrev : Int) : Nat := (asr (p * (fmPrev + 0x8000)) 15).toNat

/-- `voice_step(v, fm_prev)`: the phase increment, clamped to 0x3FFF (R214). -/
def voiceStep (v : VoiceId) (fmPrev : Int) (s : State) : Nat :=
  let p := (s.voiceReg v .pitch).toNat
  min (if s.fmEn.getLsbD v.val then modulate p fmPrev else p) 0x3FFF

/-- `consume(v, step)`: advance the phase and drop whole samples (R216). -/
def consume (step : Nat) (V : Voice) : Voice :=
  let t := V.phase.toNat + step
  { fifoDiscard (t / 0x1000 % 16) V with phase := BitVec.ofNat 16 (t % 0x1000) }

end Sys2Proof.Machine
end

