-- ==== Sys2Proof/Machine/Reverb.lean ====
section
/-!
DEFINITION. The reverb comb and all-pass filter bank (47_reverb.md).
-/

namespace Sys2Proof

/-- Per-side cells (R318): dSAME. -/
def Side.dSame : Side → CellId
  | .left => 0xF0
  | .right => 0xF1

/-- mSAME (R318). -/
def Side.mSame : Side → CellId
  | .left => 0xEA
  | .right => 0xEB

/-- dDIFF: the other side's displacement (R318). -/
def Side.dDiff : Side → CellId
  | .left => 0xF9
  | .right => 0xF8

/-- mDIFF (R318). -/
def Side.mDiff : Side → CellId
  | .left => 0xF2
  | .right => 0xF3

/-- mCOMB1 (R318). -/
def Side.mComb1 : Side → CellId
  | .left => 0xEC
  | .right => 0xED

/-- mCOMB2 (R318). -/
def Side.mComb2 : Side → CellId
  | .left => 0xEE
  | .right => 0xEF

/-- mCOMB3 (R318). -/
def Side.mComb3 : Side → CellId
  | .left => 0xF4
  | .right => 0xF5

/-- mCOMB4 (R318). -/
def Side.mComb4 : Side → CellId
  | .left => 0xF6
  | .right => 0xF7

/-- mAPF1 (R318). -/
def Side.mApf1 : Side → CellId
  | .left => 0xFA
  | .right => 0xFB

/-- mAPF2 (R318). -/
def Side.mApf2 : Side → CellId
  | .left => 0xFC
  | .right => 0xFD

/-- vIN (R318). -/
def Side.vIn : Side → CellId
  | .left => 0xFE
  | .right => 0xFF

end Sys2Proof

namespace Sys2Proof.Machine

/-- The value of a kind-A reverb cell, a count of sound-RAM cells (R311). -/
def State.rvOffset (s : State) (h : CellId) : Int := ((indexOf (s.reg h)).toNat : Int)

/-- The value of a kind-V reverb cell, a gain (R311). -/
def State.rvGain (s : State) (h : CellId) : Int := s16 (s.reg h)

/-- `rv_size = 0x40000 - rv_base` (R312). -/
def State.rvSize (s : State) : Int := 0x40000 - (s.rvBase.toNat : Int)

/-- `rv_addr(off)`: an offset from the cursor, wrapped within the working area (R312). -/
def State.rvAddr (s : State) (off : Int) : Index :=
  BitVec.ofInt 18 ((s.rvBase.toNat : Int) + ((s.rvCursor.toNat : Int) - (s.rvBase.toNat : Int) + off) % s.rvSize)

/-- `rd(off)`: a watched read in the working area (R316). -/
def rvRead (off : Int) (s : State) : Int × State :=
  let r := memRead (s.rvAddr off) s
  (s16 r.1, r.2)

/-- `wr(off, x)`: a watched write in the working area, gated by CONTROL bit 7 (R317). -/
def rvWrite (c : Config) (off x : Int) (s : State) : State :=
  if s.rvbWriteEn || c.rvbWriteAlways then memWrite (s.rvAddr off) (u16 (sat16 x)) s else s

/-- A reflection stage with its one-pole IIR, displacement cell `d`, position cell `m` (R322, R323). -/
def reflect (c : Config) (d m : CellId) (x : Int) (s : State) : State :=
  let a := rvRead (s.rvOffset d) s
  let t := sat16 (x + mul15 a.1 (s.rvGain 0xE7))
  let old := rvRead (s.rvOffset m - 1) a.2
  rvWrite c (s.rvOffset m) (sat16 (old.1 + mul15 (t - old.1) (s.rvGain 0xE2))) old.2

/-- The four-tap comb (R324). -/
def comb (side : Side) (s : State) : Int × State :=
  let a := rvRead (s.rvOffset side.mComb1) s
  let b := rvRead (s.rvOffset side.mComb2) a.2
  let d := rvRead (s.rvOffset side.mComb3) b.2
  let e := rvRead (s.rvOffset side.mComb4) d.2
  (sat16 (mul15 a.1 (s.rvGain 0xE3) + mul15 b.1 (s.rvGain 0xE4) + mul15 d.1 (s.rvGain 0xE5) + mul15 e.1 (s.rvGain 0xE6)), e.2)

/-- An all-pass stage, position cell `m`, delay cell `d`, gain cell `g` (R325, R326). -/
def allPass (c : Config) (m d g : CellId) (x : Int) (s : State) : Int × State :=
  let o := rvRead (s.rvOffset m - s.rvOffset d) s
  let a := sat16 (x - mul15 o.1 (s.rvGain g))
  (sat16 (mul15 a (s.rvGain g) + o.1), rvWrite c (s.rvOffset m) a o.2)

/-- `reverb_side(side, x)`: the six stages (R321 to R326), in the access order of R320. -/
def reverbSide (c : Config) (side : Side) (x : Int) (s : State) : Int × State :=
  let input := mul15 x (s.rvGain side.vIn)
  let s1 := reflect c side.dSame side.mSame input s
  let s2 := reflect c side.dDiff side.mDiff input s1
  let k := comb side s2
  let p := allPass c side.mApf1 0xE0 0xE8 k.1 k.2
  allPass c side.mApf2 0xE1 0xE9 p.1 p.2

/-- Shift a sample into a delay line: index 38 newest (R320). -/
def shiftIn (line : Vector Sample 39) (x : Sample) : Vector Sample 39 := ⟨(line.toList.drop 1 ++ [x]).toArray, by simp⟩

/-- The 39-tap sum of FIR39 over a delay line (R320). -/
def firSum (c : Config) (line : Vector Sample 39) : Int := (List.zipWith (fun k x => k * s16 x) c.fir39 line.toList).sum

/-- The side this tick processes (R320). -/
def State.rvSide (s : State) : Side := if s.rvPhase then .right else .left

/-- Both downsampler lines take a sample (R315). -/
def downsampleIn (inL inR : Int) (s : State) : State :=
  { s with dsL := shiftIn s.dsL (u16 inL), dsR := shiftIn s.dsR (u16 inR) }

/-- The downsampled input of a side (R315). -/
def downsampled (c : Config) (side : Side) (s : State) : Int :=
  sat16 (asr (firSum c (match side with | .left => s.dsL | .right => s.dsR)) 15)

/-- The upsampler lines: the processed side takes y, the other 0 (R327). -/
def upsampleIn (side : Side) (y : Int) (s : State) : State :=
  match side with
  | .left => { s with usL := shiftIn s.usL (u16 y), usR := shiftIn s.usR 0#16 }
  | .right => { s with usL := shiftIn s.usL 0#16, usR := shiftIn s.usR (u16 y) }

/-- A side's reverb output after its volume cell (R328, R329). -/
def reverbOut (c : Config) (line : Vector Sample 39) (vol : Cell) : Int := mul15 (sat16 (asr (firSum c line) 14)) (s16 vol)

/-- The phase toggles; after a right-side cycle the cursor advances within the working area (R330). -/
def reverbAdvance (side : Side) (s : State) : State :=
  let cursor :=
    match side with
    | .left => s.rvCursor
    | .right => if s.rvCursor = 0x3FFFF#18 then s.rvBase else s.rvCursor + 1
  { s with rvCursor := cursor, rvPhase := !s.rvPhase }

/-- `reverb_cycle(in_l, in_r)`: the two outputs and the state after it (R320). -/
def reverbCycle (c : Config) (inL inR : Int) (s : State) : (Int × Int) × State :=
  let s1 := downsampleIn inL inR s
  let y := reverbSide c s.rvSide (downsampled c s.rvSide s1) s1
  let s2 := upsampleIn s.rvSide y.1 y.2
  ((reverbOut c s2.usL (s2.reg 0xC2), reverbOut c s2.usR (s2.reg 0xC3)), reverbAdvance s.rvSide s2)

end Sys2Proof.Machine
end

