-- ==== Sys2Proof/Machine/Ring.lean ====
section
/-!
DEFINITION. The audio output ring buffer (49_ringbuf.md).
-/

namespace Sys2Proof.Machine

/-- Store a pair at the write cursor and count it (R415). -/
def Ring.store (l r : Sample) (g : Ring) : Ring :=
  { g with
    buf := (g.buf.write g.wr l).write ((g.wr + 1) % g.size) r
    wr := (g.wr + 2) % g.size
    fill := g.fill + 2
    totalWritten := g.totalWritten + 2
    maxFill := max g.maxFill (g.fill + 2)
    avgSum := g.avgSum + (g.fill + 2)
    avgCnt := g.avgCnt + 1 }

/-- Discard `k` stored samples from the oldest end (R415). -/
def Ring.dropOld (k : Nat) (g : Ring) : Ring :=
  { g with rd := (g.rd + k) % g.size, fill := g.fill - k, totalDropped := g.totalDropped + k }

/-- Refuse the incoming pair: two samples count as dropped (R415). -/
def Ring.refusePair (g : Ring) : Ring := { g with totalDropped := g.totalDropped + 2 }

/-- Discard everything (policy Reset, R415). -/
def Ring.dropAll (g : Ring) : Ring := { g with totalDropped := g.totalDropped + g.fill, rd := 0, wr := 0, fill := 0 }

/-- `push_stereo(l, r)`: the boolean and the ring after it (R415, R416). -/
def Ring.push (c : Config) (l r : Sample) (g : Ring) : Bool × Ring :=
  if g.fill + 2 ≤ g.size then (true, g.store l r)
  else
    match g.policy with
    | .dropOldest => (false, (g.dropOld 2).store l r)
    | .dropNewest => (false, g.refusePair)
    | .halveBuffer =>
      let g1 := g.dropOld (max 2 (g.fill / 2))
      (false, if c.halveAdmitsNew then g1.store l r else g1.refusePair)
    | .reset => (false, g.dropAll.store l r)

/-- How many pairs POP takes (R420). -/
def Ring.popCount (maxPairs : Nat) (g : Ring) : Nat := min maxPairs (g.fill / 2)

/-- The `k` oldest samples from position `p`, wrapping. -/
def Ring.samplesFrom (g : Ring) (p : Nat) : Nat → List Sample
  | 0 => []
  | k + 1 => g.buf.read (p % g.size) :: g.samplesFrom (p + 1) k

/-- The stored samples, oldest first: what successive POPs answer (R420). -/
def Ring.contents (g : Ring) : List Sample := g.samplesFrom g.rd g.fill

/-- `pop_stereo(max_pairs)`: the samples and the ring after it (R420). -/
def Ring.pop (maxPairs : Nat) (g : Ring) : List Sample × Ring :=
  let n := g.popCount maxPairs
  (g.samplesFrom g.rd (2 * n), { g with rd := (g.rd + 2 * n) % g.size, fill := g.fill - 2 * n })

/-- The average fill, 0 when nothing was sampled (R431). -/
def Ring.average (g : Ring) : Rat := if g.avgCnt = 0 then 0 else (g.avgSum : Rat) / (g.avgCnt : Rat)

/-- The statistics outputs, readable at any time without effect (R430). -/
structure RingStats where
  capacity : Nat
  fill : Nat
  totalWritten : Nat
  totalDropped : Nat
  maxFill : Nat
  average : Rat
  targetLatency : Nat
  debugOverlay : Bool
  deriving DecidableEq, Repr

/-- The statistics of a ring (R430). -/
def Ring.stats (g : Ring) : RingStats where
  capacity := g.size
  fill := g.fill
  totalWritten := g.totalWritten
  totalDropped := g.totalDropped
  maxFill := g.maxFill
  average := g.average
  targetLatency := g.targetLatency
  debugOverlay := g.debugOverlay

/-- RINGCFG `size, policy, latency, overlay` (R412). -/
def execRingcfg (size : BitVec 20) (policy : RingPolicy) (overlay : Bool) (latency : BitVec 12) (s : State) :
    Host.Outcome State Fault Refusal :=
  .next { s with ring := Ring.create size.toNat policy latency.toNat overlay }

/-- PUSH `l, r` (R421). -/
def execPush (l r : Sample) (s : State) : Host.Outcome State Fault Refusal :=
  let p := s.ring.push std l r
  .next { s with ring := p.2, resp := .flag p.1 }

/-- POP `max_pairs` (R420). -/
def execPop (maxPairs : BitVec 32) (s : State) : Host.Outcome State Fault Refusal :=
  let p := s.ring.pop maxPairs.toNat
  .next { s with ring := p.2, resp := .samples p.1 }

end Sys2Proof.Machine
end

