-- ==== Sys2Proof/Machine/Volume.lean ====
section
/-!
DEFINITION. The stereo volume scaler and its sweep (44_volume.md).
-/

namespace Sys2Proof.Machine

/-- What a volume cell configures (R255). -/
inductive VolConfig where
  | fixed (level : Int)
  | sweep (p : EnvParams) (neg : Bool)
  deriving DecidableEq, Repr

/-- `vol_config(word)` with the fields of R163 (R255). -/
def volConfig (word : Cell) : VolConfig :=
  if word.getLsbD 15 then
    let dec := word.getLsbD 13
    let step : Int := if dec then -8 + field word 0 2 else 7 - field word 0 2
    let p :=
      if word.getLsbD 14 then
        if dec then expParams (field word 2 5) step else smoothUpParams (field word 2 5) step
      else linearParams (field word 2 5) step
    .sweep p (word.getLsbD 12)
  else .fixed (s16 (word <<< 1))

/-- The magnitude in the sweep's phase that a level stands for (R258). -/
def sweepMagnitude (neg : Bool) (level : Sample) : Int := clamp (if neg then -s16 level else s16 level) 0 0x7FFF

/-- The level of a magnitude in the sweep's phase (R258). -/
def sweepLevel (neg : Bool) (m : Int) : Sample := u16 (if neg then -m else m)

/-- `sweep_cycle(U, word)`: recompute a unit's level from its cell (R258). -/
def sweepCycle (word : Cell) (U : VolUnit) : VolUnit :=
  match volConfig word with
  | .fixed x => { U with level := u16 x }
  | .sweep p neg =>
    let m := sweepMagnitude neg U.level
    let d := min 0xFFFF (U.divider.toNat + divStep p m)
    if d < 0x8000 then { level := sweepLevel neg m, divider := BitVec.ofNat 16 d }
    else
      { level := sweepLevel neg (clamp (m + lvlStep p m) 0 0x7FFF), divider := BitVec.ofNat 16 (d - 0x8000) }

/-- A voice's two units, step V6 (R261). -/
def sweepVoice (v : VoiceId) (s : State) : State :=
  s.modVoice v fun V =>
    { V with volL := sweepCycle (s.voiceReg v .volL) V.volL, volR := sweepCycle (s.voiceReg v .volR) V.volR }

/-- The main-volume units, step T9 (R261, R304). -/
def sweepMain (s : State) : State :=
  { s with mvL := sweepCycle (s.reg 0xC0) s.mvL, mvR := sweepCycle (s.reg 0xC1) s.mvR }

/-- Main volume scaling of one side's mix (R260, R303). -/
def mainScale (mix : Int) (U : VolUnit) : Int := sat16 (mul15 (sat16 mix) (s16 U.level))

end Sys2Proof.Machine
end

