-- ==== Sys2Proof/Machine/Mixer.lean ====
section
/-!
DEFINITION. The synthesis tick, the voice cycle and the 24-input mixer (46_mixer_tick.md), and RESYNC (60_exceptions.md R455).
-/

namespace Sys2Proof.Machine

/-- The temporaries of one tick, exact integers (R281). -/
structure Mix where
  lmix : Int
  rmix : Int
  lrev : Int
  rrev : Int
  fmPrev : Int
  deriving DecidableEq, Repr

/-- All temporaries 0: step T1 (R280). -/
def Mix.zero : Mix := { lmix := 0, rmix := 0, lrev := 0, rrev := 0, fmPrev := 0 }

/-- Step V2: the noise sample or the interpolated one (R285, R274). -/
def rawSample (c : Config) (v : VoiceId) (s : State) : Int :=
  if s.noiseEn.getLsbD v.val then s16 s.lfsr else interpolate c (s.voice v)

/-- Step V3: envelope scaling (R243, R286). -/
def enveloped (raw : Int) (V : Voice) : Int := mul15 raw (s16 V.adsr.level)

/-- Step V4: voices 1 and 3 are captured in sound RAM (R287). -/
def voiceCapture (v : VoiceId) (e : Int) (s : State) : State :=
  if v = 1 then memWrite (0x400#18 ||| (0#9 ++ s.capIndex)) (u16 e) s
  else if v = 3 then memWrite (0x600#18 ||| (0#9 ++ s.capIndex)) (u16 e) s
  else s

/-- Step V7: the start delay counts down, or the envelope and the phase advance (R290). -/
def advanceVoice (v : VoiceId) (fmPrev : Int) (s : State) : State :=
  let step := voiceStep v fmPrev s
  let cfg := s.adsrCfg v
  s.modVoice v fun V =>
    if 0 < V.startDelay then { V with startDelay := V.startDelay - 1 }
    else consume step { V with adsr := adsrTick cfg V.adsr }

/-- `voice_restart(v)`: key-on (R293). -/
def voiceRestart (c : Config) (v : VoiceId) (s : State) : State :=
  clearEndx v <| s.modVoice v fun V =>
    { decoderRestart (s.startIndex v) V with adsr := adsrAttack V.adsr, phase := 0#16, startDelay := c.startDelay }

/-- Step V8: key-off, then key-on (R292). -/
def keyEvents (c : Config) (v : VoiceId) (s : State) : State :=
  let s1 := if s.keyOff.getLsbD v.val then s.modVoice v fun V => { V with adsr := adsrRelease V.adsr } else s
  if s.keyOn.getLsbD v.val then voiceRestart c v s1 else s1

/-- Step V9: while the SPU is disabled every voice is released at level 0 (R294). -/
def disableMute (v : VoiceId) (s : State) : State :=
  if s.spuEnable then s else s.modVoice v fun V => { V with adsr := adsrMute V.adsr }

/-- Step V11: accumulate the panned sample, and into the reverb input if the voice sends to it (R295). -/
def Mix.add (m : Mix) (l r : Int) (rev : Bool) (fm : Int) : Mix where
  lmix := m.lmix + l
  rmix := m.rmix + r
  lrev := if rev then m.lrev + l else m.lrev
  rrev := if rev then m.rrev + r else m.rrev
  fmPrev := fm

/-- Step V10: the sample handed to the next voice (R217, R291). -/
def handOn (c : Config) (raw e : Int) : Int :=
  match c.fmSource with
  | .preEnvelope => raw
  | .postEnvelope => e

/-- `voice_cycle(v)` (R282). -/
def voiceCycle (c : Config) (p : State × Mix) (v : VoiceId) : State × Mix :=
  let s1 := decoderStep c v p.1
  let V := s1.voice v
  let raw := rawSample c v s1
  let e := enveloped raw V
  let s2 := sweepVoice v (voiceCapture v e s1)
  let s3 := disableMute v (keyEvents c v (advanceVoice v p.2.fmPrev s2))
  (s3, p.2.add (mul15 e (s16 V.volL.level)) (mul15 e (s16 V.volR.level)) (s3.revEn.getLsbD v.val) (handOn c raw e))

/-- The voices in ascending order (R280). -/
def voiceIds : List VoiceId := [0, 1, 2, 3, 4, 5, 6, 7, 8, 9, 10, 11, 12, 13, 14, 15, 16, 17, 18, 19, 20, 21, 22, 23]

/-- Steps T1 and T2: the 24 voice cycles (R280). -/
def voicePass (c : Config) (s : State) : State × Mix := voiceIds.foldl (voiceCycle c) (s, Mix.zero)

/-- Step T4: with `unmute` = 0 the voices' contributions are dropped (R296). -/
def muteMix (s : State) (m : Mix) : Mix := if s.unmute then m else Mix.zero

/-- Step T5: `cd_capture()`, left first (R298). -/
def cdCapture (s : State) : State :=
  let s1 := memWrite (0#9 ++ s.capIndex) s.cdL s
  memWrite (0x200#18 ||| (0#9 ++ s.capIndex)) s.cdR s1

/-- Step T6: `cd_blend()` (R299). -/
def cdBlend (s : State) (m : Mix) : Mix :=
  if s.cdEn then
    let cl := mul15 (s16 s.cdL) (s16 (s.reg 0xD8))
    let cr := mul15 (s16 s.cdR) (s16 (s.reg 0xD9))
    m.add cl cr s.cdRvb m.fmPrev
  else m

/-- Steps T8 to T12: output stage, main sweep, capture index, key latches, ring push (R280). -/
def finishTick (c : Config) (lmix rmix : Int) (s : State) : State :=
  let l := u16 (mainScale lmix s.mvL)
  let r := u16 (mainScale rmix s.mvR)
  let s1 := sweepMain s
  { s1 with capIndex := s1.capIndex + 1, keyOn := 0#24, keyOff := 0#24, ring := (s1.ring.push c l r).2 }

/-- TICK: one output sample pair (R280). -/
def tick (c : Config) (s : State) : State :=
  let p := voicePass c s
  let s1 := cdCapture (noiseCycle c p.1)
  let m := cdBlend s1 (muteMix s1 p.2)
  let q := reverbCycle c (sat16 m.lrev) (sat16 m.rrev) s1
  finishTick c (m.lmix + q.1.1) (m.rmix + q.1.2) q.2

/-- TICK repeated (R455). -/
def ticks (c : Config) : Nat → State → State
  | 0, s => s
  | n + 1, s => ticks c n (tick c s)

/-- TICK, op 0xA (R280). -/
def execTick (s : State) : Host.Outcome State Fault Refusal := .next (tick std s)

/-- RESYNC `cycles`: whole ticks owed, the remainder kept (R455). -/
def execResync (cycles : BitVec 32) (s : State) : Host.Outcome State Fault Refusal :=
  let acc := s.resyncAcc + cycles.toNat
  let n := acc / std.clockDiv
  .next ((ticks std n { s with resyncAcc := acc % std.clockDiv }).respond (.ticks n))

end Sys2Proof.Machine
end

