-- ==== Sys2Proof/Machine/RegRead.lean ====
section
/-!
DEFINITION. The register rows that refine RD16: one meaning per row, each over the shared reads of Machine/Bus.lean. No read changes any
other state (R381).
-/

namespace Sys2Proof.Machine

/-- RD16.V_VOL_L: the stored value (R351). -/
def execRd16VVolL (v : VoiceId) (s : State) : Host.Outcome State Fault Refusal := .next (s.respond (.half (s.voiceReg v .volL)))

/-- RD16.V_VOL_R: the stored value (R352). -/
def execRd16VVolR (v : VoiceId) (s : State) : Host.Outcome State Fault Refusal := .next (s.respond (.half (s.voiceReg v .volR)))

/-- RD16.V_PITCH: the stored value (R353). -/
def execRd16VPitch (v : VoiceId) (s : State) : Host.Outcome State Fault Refusal := .next (s.respond (.half (s.voiceReg v .pitch)))

/-- RD16.V_START: the stored value (R354). -/
def execRd16VStart (v : VoiceId) (s : State) : Host.Outcome State Fault Refusal := .next (s.respond (.half (s.voiceReg v .start)))

/-- RD16.V_ADSR_LO: the stored value (R355). -/
def execRd16VAdsrLo (v : VoiceId) (s : State) : Host.Outcome State Fault Refusal := .next (s.respond (.half (s.voiceReg v .adsrLo)))

/-- RD16.V_ADSR_HI: the stored value (R356). -/
def execRd16VAdsrHi (v : VoiceId) (s : State) : Host.Outcome State Fault Refusal := .next (s.respond (.half (s.voiceReg v .adsrHi)))

/-- RD16.V_LEVEL: the live level (R357). -/
def execRd16VLevel (v : VoiceId) (s : State) : Host.Outcome State Fault Refusal := .next (s.respond (.half (readVLevel v s)))

/-- RD16.V_REPEAT: the live loop index / 4 (R358). -/
def execRd16VRepeat (v : VoiceId) (s : State) : Host.Outcome State Fault Refusal := .next (s.respond (.half (readVRepeat v s)))

/-- RD16.MAIN_VOL_L: the stored value (R359). -/
def execRd16MainVolL (s : State) : Host.Outcome State Fault Refusal := .next (s.respond (.half (s.reg 0xC0)))

/-- RD16.MAIN_VOL_R: the stored value (R360). -/
def execRd16MainVolR (s : State) : Host.Outcome State Fault Refusal := .next (s.respond (.half (s.reg 0xC1)))

/-- RD16.RVB_OUT_L: the stored value (R361). -/
def execRd16RvbOutL (s : State) : Host.Outcome State Fault Refusal := .next (s.respond (.half (s.reg 0xC2)))

/-- RD16.RVB_OUT_R: the stored value (R361). -/
def execRd16RvbOutR (s : State) : Host.Outcome State Fault Refusal := .next (s.respond (.half (s.reg 0xC3)))

/-- RD16.KON_LO: the stored value (R362). -/
def execRd16KonLo (s : State) : Host.Outcome State Fault Refusal := .next (s.respond (.half (s.reg 0xC4)))

/-- RD16.KON_HI: the stored value (R362). -/
def execRd16KonHi (s : State) : Host.Outcome State Fault Refusal := .next (s.respond (.half (s.reg 0xC5)))

/-- RD16.KOFF_LO: the stored value (R363). -/
def execRd16KoffLo (s : State) : Host.Outcome State Fault Refusal := .next (s.respond (.half (s.reg 0xC6)))

/-- RD16.KOFF_HI: the stored value (R363). -/
def execRd16KoffHi (s : State) : Host.Outcome State Fault Refusal := .next (s.respond (.half (s.reg 0xC7)))

/-- RD16.FM_LO: the stored value (R364). -/
def execRd16FmLo (s : State) : Host.Outcome State Fault Refusal := .next (s.respond (.half (s.reg 0xC8)))

/-- RD16.FM_HI: the stored value (R364). -/
def execRd16FmHi (s : State) : Host.Outcome State Fault Refusal := .next (s.respond (.half (s.reg 0xC9)))

/-- RD16.NOISE_LO: the stored value (R365). -/
def execRd16NoiseLo (s : State) : Host.Outcome State Fault Refusal := .next (s.respond (.half (s.reg 0xCA)))

/-- RD16.NOISE_HI: the stored value (R365). -/
def execRd16NoiseHi (s : State) : Host.Outcome State Fault Refusal := .next (s.respond (.half (s.reg 0xCB)))

/-- RD16.RVB_EN_LO: the stored value (R366). -/
def execRd16RvbEnLo (s : State) : Host.Outcome State Fault Refusal := .next (s.respond (.half (s.reg 0xCC)))

/-- RD16.RVB_EN_HI: the stored value (R366). -/
def execRd16RvbEnHi (s : State) : Host.Outcome State Fault Refusal := .next (s.respond (.half (s.reg 0xCD)))

/-- RD16.ENDX_LO: endx[15:0] (R367). -/
def execRd16EndxLo (s : State) : Host.Outcome State Fault Refusal := .next (s.respond (.half (readEndxLo s)))

/-- RD16.ENDX_HI: endx[23:16] (R367). -/
def execRd16EndxHi (s : State) : Host.Outcome State Fault Refusal := .next (s.respond (.half (readEndxHi s)))

/-- RD16.CELL_D0: the stored value (R368). -/
def execRd16CellD0 (s : State) : Host.Outcome State Fault Refusal := .next (s.respond (.half (s.reg 0xD0)))

/-- RD16.RVB_BASE: the stored value (R369). -/
def execRd16RvbBase (s : State) : Host.Outcome State Fault Refusal := .next (s.respond (.half (s.reg 0xD1)))

/-- RD16.IRQ_ADDR: the stored value (R370). -/
def execRd16IrqAddr (s : State) : Host.Outcome State Fault Refusal := .next (s.respond (.half (s.reg 0xD2)))

/-- RD16.XFER_ADDR: the stored value (R371). -/
def execRd16XferAddr (s : State) : Host.Outcome State Fault Refusal := .next (s.respond (.half (s.reg 0xD3)))

/-- RD16.XFER_FIFO: the stored value (R372). -/
def execRd16XferFifo (s : State) : Host.Outcome State Fault Refusal := .next (s.respond (.half (s.reg 0xD4)))

/-- RD16.CONTROL: the stored value (R373). -/
def execRd16Control (s : State) : Host.Outcome State Fault Refusal := .next (s.respond (.half (s.reg 0xD5)))

/-- RD16.XFER_CTRL: the stored value (R374). -/
def execRd16XferCtrl (s : State) : Host.Outcome State Fault Refusal := .next (s.respond (.half (s.reg 0xD6)))

/-- RD16.STATUS: the word of R169 (R375). -/
def execRd16Status (s : State) : Host.Outcome State Fault Refusal := .next (s.respond (.half (statusWord s)))

/-- RD16.CD_VOL_L: the stored value (R376). -/
def execRd16CdVolL (s : State) : Host.Outcome State Fault Refusal := .next (s.respond (.half (s.reg 0xD8)))

/-- RD16.CD_VOL_R: the stored value (R376). -/
def execRd16CdVolR (s : State) : Host.Outcome State Fault Refusal := .next (s.respond (.half (s.reg 0xD9)))

/-- RD16.CELL_DA: the stored value (R377). -/
def execRd16CellDA (s : State) : Host.Outcome State Fault Refusal := .next (s.respond (.half (s.reg 0xDA)))

/-- RD16.CELL_DB: the stored value (R377). -/
def execRd16CellDB (s : State) : Host.Outcome State Fault Refusal := .next (s.respond (.half (s.reg 0xDB)))

/-- RD16.CELL_DC: the stored value (R377). -/
def execRd16CellDC (s : State) : Host.Outcome State Fault Refusal := .next (s.respond (.half (s.reg 0xDC)))

/-- RD16.CELL_DD: the stored value (R377). -/
def execRd16CellDD (s : State) : Host.Outcome State Fault Refusal := .next (s.respond (.half (s.reg 0xDD)))

/-- RD16.CELL_DE: the stored value (R377). -/
def execRd16CellDE (s : State) : Host.Outcome State Fault Refusal := .next (s.respond (.half (s.reg 0xDE)))

/-- RD16.CELL_DF: the stored value (R377). -/
def execRd16CellDF (s : State) : Host.Outcome State Fault Refusal := .next (s.respond (.half (s.reg 0xDF)))

/-- RD16.RVB_dAPF1: the stored value (R378). -/
def execRd16RvbDAPF1 (s : State) : Host.Outcome State Fault Refusal := .next (s.respond (.half (s.reg 0xE0)))

/-- RD16.RVB_dAPF2: the stored value (R378). -/
def execRd16RvbDAPF2 (s : State) : Host.Outcome State Fault Refusal := .next (s.respond (.half (s.reg 0xE1)))

/-- RD16.RVB_vIIR: the stored value (R378). -/
def execRd16RvbVIIR (s : State) : Host.Outcome State Fault Refusal := .next (s.respond (.half (s.reg 0xE2)))

/-- RD16.RVB_vCOMB1: the stored value (R378). -/
def execRd16RvbVCOMB1 (s : State) : Host.Outcome State Fault Refusal := .next (s.respond (.half (s.reg 0xE3)))

/-- RD16.RVB_vCOMB2: the stored value (R378). -/
def execRd16RvbVCOMB2 (s : State) : Host.Outcome State Fault Refusal := .next (s.respond (.half (s.reg 0xE4)))

/-- RD16.RVB_vCOMB3: the stored value (R378). -/
def execRd16RvbVCOMB3 (s : State) : Host.Outcome State Fault Refusal := .next (s.respond (.half (s.reg 0xE5)))

/-- RD16.RVB_vCOMB4: the stored value (R378). -/
def execRd16RvbVCOMB4 (s : State) : Host.Outcome State Fault Refusal := .next (s.respond (.half (s.reg 0xE6)))

/-- RD16.RVB_vWALL: the stored value (R378). -/
def execRd16RvbVWALL (s : State) : Host.Outcome State Fault Refusal := .next (s.respond (.half (s.reg 0xE7)))

/-- RD16.RVB_vAPF1: the stored value (R378). -/
def execRd16RvbVAPF1 (s : State) : Host.Outcome State Fault Refusal := .next (s.respond (.half (s.reg 0xE8)))

/-- RD16.RVB_vAPF2: the stored value (R378). -/
def execRd16RvbVAPF2 (s : State) : Host.Outcome State Fault Refusal := .next (s.respond (.half (s.reg 0xE9)))

/-- RD16.RVB_mLSAME: the stored value (R378). -/
def execRd16RvbMLSAME (s : State) : Host.Outcome State Fault Refusal := .next (s.respond (.half (s.reg 0xEA)))

/-- RD16.RVB_mRSAME: the stored value (R378). -/
def execRd16RvbMRSAME (s : State) : Host.Outcome State Fault Refusal := .next (s.respond (.half (s.reg 0xEB)))

/-- RD16.RVB_mLCOMB1: the stored value (R378). -/
def execRd16RvbMLCOMB1 (s : State) : Host.Outcome State Fault Refusal := .next (s.respond (.half (s.reg 0xEC)))

/-- RD16.RVB_mRCOMB1: the stored value (R378). -/
def execRd16RvbMRCOMB1 (s : State) : Host.Outcome State Fault Refusal := .next (s.respond (.half (s.reg 0xED)))

/-- RD16.RVB_mLCOMB2: the stored value (R378). -/
def execRd16RvbMLCOMB2 (s : State) : Host.Outcome State Fault Refusal := .next (s.respond (.half (s.reg 0xEE)))

/-- RD16.RVB_mRCOMB2: the stored value (R378). -/
def execRd16RvbMRCOMB2 (s : State) : Host.Outcome State Fault Refusal := .next (s.respond (.half (s.reg 0xEF)))

/-- RD16.RVB_dLSAME: the stored value (R378). -/
def execRd16RvbDLSAME (s : State) : Host.Outcome State Fault Refusal := .next (s.respond (.half (s.reg 0xF0)))

/-- RD16.RVB_dRSAME: the stored value (R378). -/
def execRd16RvbDRSAME (s : State) : Host.Outcome State Fault Refusal := .next (s.respond (.half (s.reg 0xF1)))

/-- RD16.RVB_mLDIFF: the stored value (R378). -/
def execRd16RvbMLDIFF (s : State) : Host.Outcome State Fault Refusal := .next (s.respond (.half (s.reg 0xF2)))

/-- RD16.RVB_mRDIFF: the stored value (R378). -/
def execRd16RvbMRDIFF (s : State) : Host.Outcome State Fault Refusal := .next (s.respond (.half (s.reg 0xF3)))

/-- RD16.RVB_mLCOMB3: the stored value (R378). -/
def execRd16RvbMLCOMB3 (s : State) : Host.Outcome State Fault Refusal := .next (s.respond (.half (s.reg 0xF4)))

/-- RD16.RVB_mRCOMB3: the stored value (R378). -/
def execRd16RvbMRCOMB3 (s : State) : Host.Outcome State Fault Refusal := .next (s.respond (.half (s.reg 0xF5)))

/-- RD16.RVB_mLCOMB4: the stored value (R378). -/
def execRd16RvbMLCOMB4 (s : State) : Host.Outcome State Fault Refusal := .next (s.respond (.half (s.reg 0xF6)))

/-- RD16.RVB_mRCOMB4: the stored value (R378). -/
def execRd16RvbMRCOMB4 (s : State) : Host.Outcome State Fault Refusal := .next (s.respond (.half (s.reg 0xF7)))

/-- RD16.RVB_dLDIFF: the stored value (R378). -/
def execRd16RvbDLDIFF (s : State) : Host.Outcome State Fault Refusal := .next (s.respond (.half (s.reg 0xF8)))

/-- RD16.RVB_dRDIFF: the stored value (R378). -/
def execRd16RvbDRDIFF (s : State) : Host.Outcome State Fault Refusal := .next (s.respond (.half (s.reg 0xF9)))

/-- RD16.RVB_mLAPF1: the stored value (R378). -/
def execRd16RvbMLAPF1 (s : State) : Host.Outcome State Fault Refusal := .next (s.respond (.half (s.reg 0xFA)))

/-- RD16.RVB_mRAPF1: the stored value (R378). -/
def execRd16RvbMRAPF1 (s : State) : Host.Outcome State Fault Refusal := .next (s.respond (.half (s.reg 0xFB)))

/-- RD16.RVB_mLAPF2: the stored value (R378). -/
def execRd16RvbMLAPF2 (s : State) : Host.Outcome State Fault Refusal := .next (s.respond (.half (s.reg 0xFC)))

/-- RD16.RVB_mRAPF2: the stored value (R378). -/
def execRd16RvbMRAPF2 (s : State) : Host.Outcome State Fault Refusal := .next (s.respond (.half (s.reg 0xFD)))

/-- RD16.RVB_vLIN: the stored value (R378). -/
def execRd16RvbVLIN (s : State) : Host.Outcome State Fault Refusal := .next (s.respond (.half (s.reg 0xFE)))

/-- RD16.RVB_vRIN: the stored value (R378). -/
def execRd16RvbVRIN (s : State) : Host.Outcome State Fault Refusal := .next (s.respond (.half (s.reg 0xFF)))

/-- RD16.V_CURVOL_L: the live level (R379). -/
def execRd16VCurvolL (v : VoiceId) (s : State) : Host.Outcome State Fault Refusal := .next (s.respond (.half (readCurVol v .left s)))

/-- RD16.V_CURVOL_R: the live level (R379). -/
def execRd16VCurvolR (v : VoiceId) (s : State) : Host.Outcome State Fault Refusal := .next (s.respond (.half (readCurVol v .right s)))

/-- RD16.UNMAPPED: 0 (R380). -/
def execRd16Unmapped (_ : HalfOff) (s : State) : Host.Outcome State Fault Refusal := .next (s.respond (.half (0#16)))

end Sys2Proof.Machine
end

