-- ==== Sys2Proof/Machine/RegWrite.lean ====
section
/-!
DEFINITION. The register rows that refine WR16: one meaning per row, over the shared writes of Machine/Bus.lean.
-/

namespace Sys2Proof.Machine

/-- WR16.V_VOL_L: store (R351). -/
def execWr16VVolL (v : VoiceId) (val : Cell) (s : State) : Host.Outcome State Fault Refusal := .next (s.setReg (voiceCell v .volL) val)

/-- WR16.V_VOL_R: store (R352). -/
def execWr16VVolR (v : VoiceId) (val : Cell) (s : State) : Host.Outcome State Fault Refusal := .next (s.setReg (voiceCell v .volR) val)

/-- WR16.V_PITCH: store (R353). -/
def execWr16VPitch (v : VoiceId) (val : Cell) (s : State) : Host.Outcome State Fault Refusal := .next (s.setReg (voiceCell v .pitch) val)

/-- WR16.V_START: store (R354). -/
def execWr16VStart (v : VoiceId) (val : Cell) (s : State) : Host.Outcome State Fault Refusal := .next (s.setReg (voiceCell v .start) val)

/-- WR16.V_ADSR_LO: store (R355). -/
def execWr16VAdsrLo (v : VoiceId) (val : Cell) (s : State) : Host.Outcome State Fault Refusal := .next (s.setReg (voiceCell v .adsrLo) val)

/-- WR16.V_ADSR_HI: store (R356). -/
def execWr16VAdsrHi (v : VoiceId) (val : Cell) (s : State) : Host.Outcome State Fault Refusal := .next (s.setReg (voiceCell v .adsrHi) val)

/-- WR16.V_LEVEL: store, and set the level (R357). -/
def execWr16VLevel (v : VoiceId) (val : Cell) (s : State) : Host.Outcome State Fault Refusal := .next (writeVLevel v val s)

/-- WR16.V_REPEAT: store, and override the loop index (R358). -/
def execWr16VRepeat (v : VoiceId) (val : Cell) (s : State) : Host.Outcome State Fault Refusal := .next (writeVRepeat v val s)

/-- WR16.MAIN_VOL_L: store (R359). -/
def execWr16MainVolL (val : Cell) (s : State) : Host.Outcome State Fault Refusal := .next (s.setReg 0xC0 val)

/-- WR16.MAIN_VOL_R: store (R360). -/
def execWr16MainVolR (val : Cell) (s : State) : Host.Outcome State Fault Refusal := .next (s.setReg 0xC1 val)

/-- WR16.RVB_OUT_L: store (R361). -/
def execWr16RvbOutL (val : Cell) (s : State) : Host.Outcome State Fault Refusal := .next (s.setReg 0xC2 val)

/-- WR16.RVB_OUT_R: store (R361). -/
def execWr16RvbOutR (val : Cell) (s : State) : Host.Outcome State Fault Refusal := .next (s.setReg 0xC3 val)

/-- WR16.KON_LO: store, and latch key-on of voices 0..15 (R362). -/
def execWr16KonLo (val : Cell) (s : State) : Host.Outcome State Fault Refusal := .next (latchKeyOn (maskLo val) (s.setReg 0xC4 val))

/-- WR16.KON_HI: store, and latch key-on of voices 16..23 (R362). -/
def execWr16KonHi (val : Cell) (s : State) : Host.Outcome State Fault Refusal := .next (latchKeyOn (maskHi val) (s.setReg 0xC5 val))

/-- WR16.KOFF_LO: store, and latch key-off of voices 0..15 (R363). -/
def execWr16KoffLo (val : Cell) (s : State) : Host.Outcome State Fault Refusal := .next (latchKeyOff (maskLo val) (s.setReg 0xC6 val))

/-- WR16.KOFF_HI: store, and latch key-off of voices 16..23 (R363). -/
def execWr16KoffHi (val : Cell) (s : State) : Host.Outcome State Fault Refusal := .next (latchKeyOff (maskHi val) (s.setReg 0xC7 val))

/-- WR16.FM_LO: store (R364). -/
def execWr16FmLo (val : Cell) (s : State) : Host.Outcome State Fault Refusal := .next (s.setReg 0xC8 val)

/-- WR16.FM_HI: store (R364). -/
def execWr16FmHi (val : Cell) (s : State) : Host.Outcome State Fault Refusal := .next (s.setReg 0xC9 val)

/-- WR16.NOISE_LO: store (R365). -/
def execWr16NoiseLo (val : Cell) (s : State) : Host.Outcome State Fault Refusal := .next (s.setReg 0xCA val)

/-- WR16.NOISE_HI: store (R365). -/
def execWr16NoiseHi (val : Cell) (s : State) : Host.Outcome State Fault Refusal := .next (s.setReg 0xCB val)

/-- WR16.RVB_EN_LO: store (R366). -/
def execWr16RvbEnLo (val : Cell) (s : State) : Host.Outcome State Fault Refusal := .next (s.setReg 0xCC val)

/-- WR16.RVB_EN_HI: store (R366). -/
def execWr16RvbEnHi (val : Cell) (s : State) : Host.Outcome State Fault Refusal := .next (s.setReg 0xCD val)

/-- WR16.ENDX_LO: ignored (R367). -/
def execWr16EndxLo (_ : Cell) (s : State) : Host.Outcome State Fault Refusal := .next s

/-- WR16.ENDX_HI: ignored (R367). -/
def execWr16EndxHi (_ : Cell) (s : State) : Host.Outcome State Fault Refusal := .next s

/-- WR16.CELL_D0: store (R368). -/
def execWr16CellD0 (val : Cell) (s : State) : Host.Outcome State Fault Refusal := .next (s.setReg 0xD0 val)

/-- WR16.RVB_BASE: store, and move the reverb cursor (R369). -/
def execWr16RvbBase (val : Cell) (s : State) : Host.Outcome State Fault Refusal := .next (writeRvbBase val s)

/-- WR16.IRQ_ADDR: store, then check (R370). -/
def execWr16IrqAddr (val : Cell) (s : State) : Host.Outcome State Fault Refusal := .next (writeIrqAddr val s)

/-- WR16.XFER_ADDR: store, and set the transfer index (R371). -/
def execWr16XferAddr (val : Cell) (s : State) : Host.Outcome State Fault Refusal := .next (writeXferAddr val s)

/-- WR16.XFER_FIFO: store, and write sound RAM (R372). -/
def execWr16XferFifo (val : Cell) (s : State) : Host.Outcome State Fault Refusal := .next (writeXferFifo val s)

/-- WR16.CONTROL: store, then check or clear the latch (R373). -/
def execWr16Control (val : Cell) (s : State) : Host.Outcome State Fault Refusal := .next (writeControl val s)

/-- WR16.XFER_CTRL: store (R374). -/
def execWr16XferCtrl (val : Cell) (s : State) : Host.Outcome State Fault Refusal := .next (s.setReg 0xD6 val)

/-- WR16.STATUS: ignored (R375). -/
def execWr16Status (_ : Cell) (s : State) : Host.Outcome State Fault Refusal := .next s

/-- WR16.CD_VOL_L: store (R376). -/
def execWr16CdVolL (val : Cell) (s : State) : Host.Outcome State Fault Refusal := .next (s.setReg 0xD8 val)

/-- WR16.CD_VOL_R: store (R376). -/
def execWr16CdVolR (val : Cell) (s : State) : Host.Outcome State Fault Refusal := .next (s.setReg 0xD9 val)

/-- WR16.CELL_DA: store (R377). -/
def execWr16CellDA (val : Cell) (s : State) : Host.Outcome State Fault Refusal := .next (s.setReg 0xDA val)

/-- WR16.CELL_DB: store (R377). -/
def execWr16CellDB (val : Cell) (s : State) : Host.Outcome State Fault Refusal := .next (s.setReg 0xDB val)

/-- WR16.CELL_DC: store (R377). -/
def execWr16CellDC (val : Cell) (s : State) : Host.Outcome State Fault Refusal := .next (s.setReg 0xDC val)

/-- WR16.CELL_DD: store (R377). -/
def execWr16CellDD (val : Cell) (s : State) : Host.Outcome State Fault Refusal := .next (s.setReg 0xDD val)

/-- WR16.CELL_DE: store (R377). -/
def execWr16CellDE (val : Cell) (s : State) : Host.Outcome State Fault Refusal := .next (s.setReg 0xDE val)

/-- WR16.CELL_DF: store (R377). -/
def execWr16CellDF (val : Cell) (s : State) : Host.Outcome State Fault Refusal := .next (s.setReg 0xDF val)

/-- WR16.RVB_dAPF1: store (R378). -/
def execWr16RvbDAPF1 (val : Cell) (s : State) : Host.Outcome State Fault Refusal := .next (s.setReg 0xE0 val)

/-- WR16.RVB_dAPF2: store (R378). -/
def execWr16RvbDAPF2 (val : Cell) (s : State) : Host.Outcome State Fault Refusal := .next (s.setReg 0xE1 val)

/-- WR16.RVB_vIIR: store (R378). -/
def execWr16RvbVIIR (val : Cell) (s : State) : Host.Outcome State Fault Refusal := .next (s.setReg 0xE2 val)

/-- WR16.RVB_vCOMB1: store (R378). -/
def execWr16RvbVCOMB1 (val : Cell) (s : State) : Host.Outcome State Fault Refusal := .next (s.setReg 0xE3 val)

/-- WR16.RVB_vCOMB2: store (R378). -/
def execWr16RvbVCOMB2 (val : Cell) (s : State) : Host.Outcome State Fault Refusal := .next (s.setReg 0xE4 val)

/-- WR16.RVB_vCOMB3: store (R378). -/
def execWr16RvbVCOMB3 (val : Cell) (s : State) : Host.Outcome State Fault Refusal := .next (s.setReg 0xE5 val)

/-- WR16.RVB_vCOMB4: store (R378). -/
def execWr16RvbVCOMB4 (val : Cell) (s : State) : Host.Outcome State Fault Refusal := .next (s.setReg 0xE6 val)

/-- WR16.RVB_vWALL: store (R378). -/
def execWr16RvbVWALL (val : Cell) (s : State) : Host.Outcome State Fault Refusal := .next (s.setReg 0xE7 val)

/-- WR16.RVB_vAPF1: store (R378). -/
def execWr16RvbVAPF1 (val : Cell) (s : State) : Host.Outcome State Fault Refusal := .next (s.setReg 0xE8 val)

/-- WR16.RVB_vAPF2: store (R378). -/
def execWr16RvbVAPF2 (val : Cell) (s : State) : Host.Outcome State Fault Refusal := .next (s.setReg 0xE9 val)

/-- WR16.RVB_mLSAME: store (R378). -/
def execWr16RvbMLSAME (val : Cell) (s : State) : Host.Outcome State Fault Refusal := .next (s.setReg 0xEA val)

/-- WR16.RVB_mRSAME: store (R378). -/
def execWr16RvbMRSAME (val : Cell) (s : State) : Host.Outcome State Fault Refusal := .next (s.setReg 0xEB val)

/-- WR16.RVB_mLCOMB1: store (R378). -/
def execWr16RvbMLCOMB1 (val : Cell) (s : State) : Host.Outcome State Fault Refusal := .next (s.setReg 0xEC val)

/-- WR16.RVB_mRCOMB1: store (R378). -/
def execWr16RvbMRCOMB1 (val : Cell) (s : State) : Host.Outcome State Fault Refusal := .next (s.setReg 0xED val)

/-- WR16.RVB_mLCOMB2: store (R378). -/
def execWr16RvbMLCOMB2 (val : Cell) (s : State) : Host.Outcome State Fault Refusal := .next (s.setReg 0xEE val)

/-- WR16.RVB_mRCOMB2: store (R378). -/
def execWr16RvbMRCOMB2 (val : Cell) (s : State) : Host.Outcome State Fault Refusal := .next (s.setReg 0xEF val)

/-- WR16.RVB_dLSAME: store (R378). -/
def execWr16RvbDLSAME (val : Cell) (s : State) : Host.Outcome State Fault Refusal := .next (s.setReg 0xF0 val)

/-- WR16.RVB_dRSAME: store (R378). -/
def execWr16RvbDRSAME (val : Cell) (s : State) : Host.Outcome State Fault Refusal := .next (s.setReg 0xF1 val)

/-- WR16.RVB_mLDIFF: store (R378). -/
def execWr16RvbMLDIFF (val : Cell) (s : State) : Host.Outcome State Fault Refusal := .next (s.setReg 0xF2 val)

/-- WR16.RVB_mRDIFF: store (R378). -/
def execWr16RvbMRDIFF (val : Cell) (s : State) : Host.Outcome State Fault Refusal := .next (s.setReg 0xF3 val)

/-- WR16.RVB_mLCOMB3: store (R378). -/
def execWr16RvbMLCOMB3 (val : Cell) (s : State) : Host.Outcome State Fault Refusal := .next (s.setReg 0xF4 val)

/-- WR16.RVB_mRCOMB3: store (R378). -/
def execWr16RvbMRCOMB3 (val : Cell) (s : State) : Host.Outcome State Fault Refusal := .next (s.setReg 0xF5 val)

/-- WR16.RVB_mLCOMB4: store (R378). -/
def execWr16RvbMLCOMB4 (val : Cell) (s : State) : Host.Outcome State Fault Refusal := .next (s.setReg 0xF6 val)

/-- WR16.RVB_mRCOMB4: store (R378). -/
def execWr16RvbMRCOMB4 (val : Cell) (s : State) : Host.Outcome State Fault Refusal := .next (s.setReg 0xF7 val)

/-- WR16.RVB_dLDIFF: store (R378). -/
def execWr16RvbDLDIFF (val : Cell) (s : State) : Host.Outcome State Fault Refusal := .next (s.setReg 0xF8 val)

/-- WR16.RVB_dRDIFF: store (R378). -/
def execWr16RvbDRDIFF (val : Cell) (s : State) : Host.Outcome State Fault Refusal := .next (s.setReg 0xF9 val)

/-- WR16.RVB_mLAPF1: store (R378). -/
def execWr16RvbMLAPF1 (val : Cell) (s : State) : Host.Outcome State Fault Refusal := .next (s.setReg 0xFA val)

/-- WR16.RVB_mRAPF1: store (R378). -/
def execWr16RvbMRAPF1 (val : Cell) (s : State) : Host.Outcome State Fault Refusal := .next (s.setReg 0xFB val)

/-- WR16.RVB_mLAPF2: store (R378). -/
def execWr16RvbMLAPF2 (val : Cell) (s : State) : Host.Outcome State Fault Refusal := .next (s.setReg 0xFC val)

/-- WR16.RVB_mRAPF2: store (R378). -/
def execWr16RvbMRAPF2 (val : Cell) (s : State) : Host.Outcome State Fault Refusal := .next (s.setReg 0xFD val)

/-- WR16.RVB_vLIN: store (R378). -/
def execWr16RvbVLIN (val : Cell) (s : State) : Host.Outcome State Fault Refusal := .next (s.setReg 0xFE val)

/-- WR16.RVB_vRIN: store (R378). -/
def execWr16RvbVRIN (val : Cell) (s : State) : Host.Outcome State Fault Refusal := .next (s.setReg 0xFF val)

/-- WR16.V_CURVOL_L: ignored (R379). -/
def execWr16VCurvolL (_ : VoiceId) (_ : Cell) (s : State) : Host.Outcome State Fault Refusal := .next s

/-- WR16.V_CURVOL_R: ignored (R379). -/
def execWr16VCurvolR (_ : VoiceId) (_ : Cell) (s : State) : Host.Outcome State Fault Refusal := .next s

/-- WR16.UNMAPPED: ignored (R380). -/
def execWr16Unmapped (_ : HalfOff) (_ : Cell) (s : State) : Host.Outcome State Fault Refusal := .next s

end Sys2Proof.Machine
end

