-- ==== Sys2Proof/Machine/Dispatch.lean ====
section
/-!
DEFINITION. The dispatch: one arm per constructor of Instr, one meaning per arm.
-/

namespace Sys2Proof.Machine

def exec (i : Instr) (s : State) : Host.Outcome State Fault Refusal :=
  match i with
  | .nop => Sys2Proof.Machine.execNop s
  | .rd8 boff => Sys2Proof.Machine.execRd8 boff s
  | .rd16 boff => Sys2Proof.Machine.execRd16 boff s
  | .rd32 boff => Sys2Proof.Machine.execRd32 boff s
  | .push l r => Sys2Proof.Machine.execPush l r s
  | .wr8 boff b => Sys2Proof.Machine.execWr8 boff b s
  | .wr16 boff val => Sys2Proof.Machine.execWr16 boff val s
  | .wr32 boff w => Sys2Proof.Machine.execWr32 boff w s
  | .dmast w => Sys2Proof.Machine.execDmast w s
  | .dmald => Sys2Proof.Machine.execDmald s
  | .tick => Sys2Proof.Machine.execTick s
  | .resync cycles => Sys2Proof.Machine.execResync cycles s
  | .cdin l r => Sys2Proof.Machine.execCdin l r s
  | .pop maxPairs => Sys2Proof.Machine.execPop maxPairs s
  | .ringcfg size policy overlay latency => Sys2Proof.Machine.execRingcfg size policy overlay latency s
  | .reset => Sys2Proof.Machine.execReset s
  | .rd16VVolL v => Sys2Proof.Machine.execRd16VVolL v s
  | .rd16VVolR v => Sys2Proof.Machine.execRd16VVolR v s
  | .rd16VPitch v => Sys2Proof.Machine.execRd16VPitch v s
  | .rd16VStart v => Sys2Proof.Machine.execRd16VStart v s
  | .rd16VAdsrLo v => Sys2Proof.Machine.execRd16VAdsrLo v s
  | .rd16VAdsrHi v => Sys2Proof.Machine.execRd16VAdsrHi v s
  | .rd16VLevel v => Sys2Proof.Machine.execRd16VLevel v s
  | .rd16VRepeat v => Sys2Proof.Machine.execRd16VRepeat v s
  | .rd16MainVolL => Sys2Proof.Machine.execRd16MainVolL s
  | .rd16MainVolR => Sys2Proof.Machine.execRd16MainVolR s
  | .rd16RvbOutL => Sys2Proof.Machine.execRd16RvbOutL s
  | .rd16RvbOutR => Sys2Proof.Machine.execRd16RvbOutR s
  | .rd16KonLo => Sys2Proof.Machine.execRd16KonLo s
  | .rd16KonHi => Sys2Proof.Machine.execRd16KonHi s
  | .rd16KoffLo => Sys2Proof.Machine.execRd16KoffLo s
  | .rd16KoffHi => Sys2Proof.Machine.execRd16KoffHi s
  | .rd16FmLo => Sys2Proof.Machine.execRd16FmLo s
  | .rd16FmHi => Sys2Proof.Machine.execRd16FmHi s
  | .rd16NoiseLo => Sys2Proof.Machine.execRd16NoiseLo s
  | .rd16NoiseHi => Sys2Proof.Machine.execRd16NoiseHi s
  | .rd16RvbEnLo => Sys2Proof.Machine.execRd16RvbEnLo s
  | .rd16RvbEnHi => Sys2Proof.Machine.execRd16RvbEnHi s
  | .rd16EndxLo => Sys2Proof.Machine.execRd16EndxLo s
  | .rd16EndxHi => Sys2Proof.Machine.execRd16EndxHi s
  | .rd16CellD0 => Sys2Proof.Machine.execRd16CellD0 s
  | .rd16RvbBase => Sys2Proof.Machine.execRd16RvbBase s
  | .rd16IrqAddr => Sys2Proof.Machine.execRd16IrqAddr s
  | .rd16XferAddr => Sys2Proof.Machine.execRd16XferAddr s
  | .rd16XferFifo => Sys2Proof.Machine.execRd16XferFifo s
  | .rd16Control => Sys2Proof.Machine.execRd16Control s
  | .rd16XferCtrl => Sys2Proof.Machine.execRd16XferCtrl s
  | .rd16Status => Sys2Proof.Machine.execRd16Status s
  | .rd16CdVolL => Sys2Proof.Machine.execRd16CdVolL s
  | .rd16CdVolR => Sys2Proof.Machine.execRd16CdVolR s
  | .rd16CellDA => Sys2Proof.Machine.execRd16CellDA s
  | .rd16CellDB => Sys2Proof.Machine.execRd16CellDB s
  | .rd16CellDC => Sys2Proof.Machine.execRd16CellDC s
  | .rd16CellDD => Sys2Proof.Machine.execRd16CellDD s
  | .rd16CellDE => Sys2Proof.Machine.execRd16CellDE s
  | .rd16CellDF => Sys2Proof.Machine.execRd16CellDF s
  | .rd16RvbDAPF1 => Sys2Proof.Machine.execRd16RvbDAPF1 s
  | .rd16RvbDAPF2 => Sys2Proof.Machine.execRd16RvbDAPF2 s
  | .rd16RvbVIIR => Sys2Proof.Machine.execRd16RvbVIIR s
  | .rd16RvbVCOMB1 => Sys2Proof.Machine.execRd16RvbVCOMB1 s
  | .rd16RvbVCOMB2 => Sys2Proof.Machine.execRd16RvbVCOMB2 s
  | .rd16RvbVCOMB3 => Sys2Proof.Machine.execRd16RvbVCOMB3 s
  | .rd16RvbVCOMB4 => Sys2Proof.Machine.execRd16RvbVCOMB4 s
  | .rd16RvbVWALL => Sys2Proof.Machine.execRd16RvbVWALL s
  | .rd16RvbVAPF1 => Sys2Proof.Machine.execRd16RvbVAPF1 s
  | .rd16RvbVAPF2 => Sys2Proof.Machine.execRd16RvbVAPF2 s
  | .rd16RvbMLSAME => Sys2Proof.Machine.execRd16RvbMLSAME s
  | .rd16RvbMRSAME => Sys2Proof.Machine.execRd16RvbMRSAME s
  | .rd16RvbMLCOMB1 => Sys2Proof.Machine.execRd16RvbMLCOMB1 s
  | .rd16RvbMRCOMB1 => Sys2Proof.Machine.execRd16RvbMRCOMB1 s
  | .rd16RvbMLCOMB2 => Sys2Proof.Machine.execRd16RvbMLCOMB2 s
  | .rd16RvbMRCOMB2 => Sys2Proof.Machine.execRd16RvbMRCOMB2 s
  | .rd16RvbDLSAME => Sys2Proof.Machine.execRd16RvbDLSAME s
  | .rd16RvbDRSAME => Sys2Proof.Machine.execRd16RvbDRSAME s
  | .rd16RvbMLDIFF => Sys2Proof.Machine.execRd16RvbMLDIFF s
  | .rd16RvbMRDIFF => Sys2Proof.Machine.execRd16RvbMRDIFF s
  | .rd16RvbMLCOMB3 => Sys2Proof.Machine.execRd16RvbMLCOMB3 s
  | .rd16RvbMRCOMB3 => Sys2Proof.Machine.execRd16RvbMRCOMB3 s
  | .rd16RvbMLCOMB4 => Sys2Proof.Machine.execRd16RvbMLCOMB4 s
  | .rd16RvbMRCOMB4 => Sys2Proof.Machine.execRd16RvbMRCOMB4 s
  | .rd16RvbDLDIFF => Sys2Proof.Machine.execRd16RvbDLDIFF s
  | .rd16RvbDRDIFF => Sys2Proof.Machine.execRd16RvbDRDIFF s
  | .rd16RvbMLAPF1 => Sys2Proof.Machine.execRd16RvbMLAPF1 s
  | .rd16RvbMRAPF1 => Sys2Proof.Machine.execRd16RvbMRAPF1 s
  | .rd16RvbMLAPF2 => Sys2Proof.Machine.execRd16RvbMLAPF2 s
  | .rd16RvbMRAPF2 => Sys2Proof.Machine.execRd16RvbMRAPF2 s
  | .rd16RvbVLIN => Sys2Proof.Machine.execRd16RvbVLIN s
  | .rd16RvbVRIN => Sys2Proof.Machine.execRd16RvbVRIN s
  | .rd16VCurvolL v => Sys2Proof.Machine.execRd16VCurvolL v s
  | .rd16VCurvolR v => Sys2Proof.Machine.execRd16VCurvolR v s
  | .rd16Unmapped h => Sys2Proof.Machine.execRd16Unmapped h s
  | .wr16VVolL v val => Sys2Proof.Machine.execWr16VVolL v val s
  | .wr16VVolR v val => Sys2Proof.Machine.execWr16VVolR v val s
  | .wr16VPitch v val => Sys2Proof.Machine.execWr16VPitch v val s
  | .wr16VStart v val => Sys2Proof.Machine.execWr16VStart v val s
  | .wr16VAdsrLo v val => Sys2Proof.Machine.execWr16VAdsrLo v val s
  | .wr16VAdsrHi v val => Sys2Proof.Machine.execWr16VAdsrHi v val s
  | .wr16VLevel v val => Sys2Proof.Machine.execWr16VLevel v val s
  | .wr16VRepeat v val => Sys2Proof.Machine.execWr16VRepeat v val s
  | .wr16MainVolL val => Sys2Proof.Machine.execWr16MainVolL val s
  | .wr16MainVolR val => Sys2Proof.Machine.execWr16MainVolR val s
  | .wr16RvbOutL val => Sys2Proof.Machine.execWr16RvbOutL val s
  | .wr16RvbOutR val => Sys2Proof.Machine.execWr16RvbOutR val s
  | .wr16KonLo val => Sys2Proof.Machine.execWr16KonLo val s
  | .wr16KonHi val => Sys2Proof.Machine.execWr16KonHi val s
  | .wr16KoffLo val => Sys2Proof.Machine.execWr16KoffLo val s
  | .wr16KoffHi val => Sys2Proof.Machine.execWr16KoffHi val s
  | .wr16FmLo val => Sys2Proof.Machine.execWr16FmLo val s
  | .wr16FmHi val => Sys2Proof.Machine.execWr16FmHi val s
  | .wr16NoiseLo val => Sys2Proof.Machine.execWr16NoiseLo val s
  | .wr16NoiseHi val => Sys2Proof.Machine.execWr16NoiseHi val s
  | .wr16RvbEnLo val => Sys2Proof.Machine.execWr16RvbEnLo val s
  | .wr16RvbEnHi val => Sys2Proof.Machine.execWr16RvbEnHi val s
  | .wr16EndxLo val => Sys2Proof.Machine.execWr16EndxLo val s
  | .wr16EndxHi val => Sys2Proof.Machine.execWr16EndxHi val s
  | .wr16CellD0 val => Sys2Proof.Machine.execWr16CellD0 val s
  | .wr16RvbBase val => Sys2Proof.Machine.execWr16RvbBase val s
  | .wr16IrqAddr val => Sys2Proof.Machine.execWr16IrqAddr val s
  | .wr16XferAddr val => Sys2Proof.Machine.execWr16XferAddr val s
  | .wr16XferFifo val => Sys2Proof.Machine.execWr16XferFifo val s
  | .wr16Control val => Sys2Proof.Machine.execWr16Control val s
  | .wr16XferCtrl val => Sys2Proof.Machine.execWr16XferCtrl val s
  | .wr16Status val => Sys2Proof.Machine.execWr16Status val s
  | .wr16CdVolL val => Sys2Proof.Machine.execWr16CdVolL val s
  | .wr16CdVolR val => Sys2Proof.Machine.execWr16CdVolR val s
  | .wr16CellDA val => Sys2Proof.Machine.execWr16CellDA val s
  | .wr16CellDB val => Sys2Proof.Machine.execWr16CellDB val s
  | .wr16CellDC val => Sys2Proof.Machine.execWr16CellDC val s
  | .wr16CellDD val => Sys2Proof.Machine.execWr16CellDD val s
  | .wr16CellDE val => Sys2Proof.Machine.execWr16CellDE val s
  | .wr16CellDF val => Sys2Proof.Machine.execWr16CellDF val s
  | .wr16RvbDAPF1 val => Sys2Proof.Machine.execWr16RvbDAPF1 val s
  | .wr16RvbDAPF2 val => Sys2Proof.Machine.execWr16RvbDAPF2 val s
  | .wr16RvbVIIR val => Sys2Proof.Machine.execWr16RvbVIIR val s
  | .wr16RvbVCOMB1 val => Sys2Proof.Machine.execWr16RvbVCOMB1 val s
  | .wr16RvbVCOMB2 val => Sys2Proof.Machine.execWr16RvbVCOMB2 val s
  | .wr16RvbVCOMB3 val => Sys2Proof.Machine.execWr16RvbVCOMB3 val s
  | .wr16RvbVCOMB4 val => Sys2Proof.Machine.execWr16RvbVCOMB4 val s
  | .wr16RvbVWALL val => Sys2Proof.Machine.execWr16RvbVWALL val s
  | .wr16RvbVAPF1 val => Sys2Proof.Machine.execWr16RvbVAPF1 val s
  | .wr16RvbVAPF2 val => Sys2Proof.Machine.execWr16RvbVAPF2 val s
  | .wr16RvbMLSAME val => Sys2Proof.Machine.execWr16RvbMLSAME val s
  | .wr16RvbMRSAME val => Sys2Proof.Machine.execWr16RvbMRSAME val s
  | .wr16RvbMLCOMB1 val => Sys2Proof.Machine.execWr16RvbMLCOMB1 val s
  | .wr16RvbMRCOMB1 val => Sys2Proof.Machine.execWr16RvbMRCOMB1 val s
  | .wr16RvbMLCOMB2 val => Sys2Proof.Machine.execWr16RvbMLCOMB2 val s
  | .wr16RvbMRCOMB2 val => Sys2Proof.Machine.execWr16RvbMRCOMB2 val s
  | .wr16RvbDLSAME val => Sys2Proof.Machine.execWr16RvbDLSAME val s
  | .wr16RvbDRSAME val => Sys2Proof.Machine.execWr16RvbDRSAME val s
  | .wr16RvbMLDIFF val => Sys2Proof.Machine.execWr16RvbMLDIFF val s
  | .wr16RvbMRDIFF val => Sys2Proof.Machine.execWr16RvbMRDIFF val s
  | .wr16RvbMLCOMB3 val => Sys2Proof.Machine.execWr16RvbMLCOMB3 val s
  | .wr16RvbMRCOMB3 val => Sys2Proof.Machine.execWr16RvbMRCOMB3 val s
  | .wr16RvbMLCOMB4 val => Sys2Proof.Machine.execWr16RvbMLCOMB4 val s
  | .wr16RvbMRCOMB4 val => Sys2Proof.Machine.execWr16RvbMRCOMB4 val s
  | .wr16RvbDLDIFF val => Sys2Proof.Machine.execWr16RvbDLDIFF val s
  | .wr16RvbDRDIFF val => Sys2Proof.Machine.execWr16RvbDRDIFF val s
  | .wr16RvbMLAPF1 val => Sys2Proof.Machine.execWr16RvbMLAPF1 val s
  | .wr16RvbMRAPF1 val => Sys2Proof.Machine.execWr16RvbMRAPF1 val s
  | .wr16RvbMLAPF2 val => Sys2Proof.Machine.execWr16RvbMLAPF2 val s
  | .wr16RvbMRAPF2 val => Sys2Proof.Machine.execWr16RvbMRAPF2 val s
  | .wr16RvbVLIN val => Sys2Proof.Machine.execWr16RvbVLIN val s
  | .wr16RvbVRIN val => Sys2Proof.Machine.execWr16RvbVRIN val s
  | .wr16VCurvolL v val => Sys2Proof.Machine.execWr16VCurvolL v val s
  | .wr16VCurvolR v val => Sys2Proof.Machine.execWr16VCurvolR v val s
  | .wr16Unmapped h val => Sys2Proof.Machine.execWr16Unmapped h val s

end Sys2Proof.Machine
end

