-- ==== Sys2Proof/Machine/Step.lean ====
section
/-!
DEFINITION. One step: take the next command from the port, clear the response, decode and execute it. With no command issued the block
"holds its state indefinitely" between commands (R460), and the step is idle.
-/

namespace Sys2Proof.Machine

/-- The state in which the command at the head of the port is executed: the command taken, the last response gone (assumption 5). -/
def State.taken (s : State) (rest : List CmdWord) : State := { s with port := rest, resp := .none }

/-- One step of the machine (R101, R120). -/
def step (s : State) : Host.Outcome State Fault Refusal :=
  match s.port with
  | [] => .next s
  | w :: rest => exec (decode w) (s.taken rest)

/-- The host's entry: issue the command with bits `w` (the bits above `nbits` zero) as the next one; a program is a sequence of commands
from outside the block (assumption 4). -/
def State.withFetchWord (s : State) (nbits w : Nat) : State :=
  { s with port := BitVec.ofNat 48 (w % 2 ^ nbits) :: s.port }

end Sys2Proof.Machine
end

