-- ==== Sys2Proof/Safety.lean ====
section
/-!
DEFINITION. What counts as a safe run: the machine goes on, and the state keeps the spec's own invariants (R51, R312, R313, R411). Each
invariant is a predicate of its own, so that a statement names just the ones it needs. Then the phrases that the statements share: a
store with its frame, the outcomes of a push, the reset table.
-/

namespace Sys2Proof

/-- The cell that a write to a register stores to, if any: every storage cell but the read-only ones of R33; the current-level and the
unmapped registers "have no storage of their own" (R32, R367, R375, R379, R380). -/
def LogReg.storeCell : LogReg → Option CellId
  | .voice v r => some (voiceCell v r)
  | .glob .endxLo => none
  | .glob .endxHi => none
  | .glob .status => none
  | .glob g => some g.cell
  | .curVol _ _ => none
  | .unmapped _ => none

end Sys2Proof

namespace Sys2Proof.Safety

open Sys2Proof.Machine

/-- A store and nothing else: cell `h` holds `x`, every other cell and every other part of the state is unchanged. -/
def StoresOnly (h : CellId) (x : Cell) (s t : State) : Prop :=
  t.reg h = x ∧ (∀ k, k ≠ h → t.reg k = s.reg k) ∧ t = { s with regs := t.regs }

/-- The two rows of a stored cell: the read answers the cell and changes nothing, the write stores and does nothing else. -/
def StoredCell (rd : Instr) (wr : Cell → Instr) (h : CellId) : Prop :=
  ∀ s : State, exec rd s = .next { s with resp := .half (s.reg h) } ∧ ∀ x, ∃ t, exec (wr x) s = .next t ∧ StoresOnly h x s t

/-- A read row of a stored cell: the read answers the cell and changes nothing. -/
def ReadsCell (rd : Instr) (h : CellId) : Prop := ∀ s : State, exec rd s = .next { s with resp := .half (s.reg h) }

/-- R51 for one voice: the level in 0..0x7FFF, the phase below 0x1000, the FIFO at most 14 samples. -/
abbrev VoiceOk (V : Voice) : Prop := V.adsr.level.toNat ≤ 0x7FFF ∧ V.phase.toNat < 0x1000 ∧ V.fifo.length ≤ 14

/-- R51 and R50 of every voice: also the start delay in 0..START_DELAY. -/
def VoicesOk (s : State) : Prop := ∀ v, VoiceOk (s.voice v) ∧ (s.voice v).startDelay ≤ std.startDelay

/-- Sound RAM is in canonical form and lists no index outside 0..0x3FFFF (R40, R80). -/
def RamOk (s : State) : Prop := s.ram.wf ∧ s.ram.below 0x40000

/-- The reverb cursor lies in the working area, rv_base..0x3FFFF (R313). -/
def ReverbOk (s : State) : Prop := s.rvBase.toNat ≤ s.rvCursor.toNat

/-- A power of two that is at least 2 (R411). -/
def IsRingSize (n : Nat) : Prop := ∃ k, n = 2 ^ (k + 1)

/-- R411: N a power of two, even fill and cursors, `wr = (rd + fill) mod N`, fill and the high-water mark at most N. -/
structure RingOk (g : Ring) : Prop where
  size : IsRingSize g.size
  wrLt : g.wr < g.size
  rdLt : g.rd < g.size
  wrEven : 2 ∣ g.wr
  rdEven : 2 ∣ g.rd
  fillEven : 2 ∣ g.fill
  fillLe : g.fill ≤ g.size
  maxLe : g.maxFill ≤ g.size
  cursors : g.wr = (g.rd + g.fill) % g.size
  bufWf : g.buf.wf
  bufBelow : g.buf.below g.size

/-- A push that stored its pair behind `kept`, the samples it left in the queue, and discarded `dropped` samples (R415, R431). -/
def PairStored (g g' : Ring) (kept : List Sample) (dropped rd wr : Nat) (l r : Sample) : Prop :=
  g'.contents = kept ++ [l, r] ∧ g'.fill = kept.length + 2 ∧ g'.rd = rd ∧ g'.wr = wr ∧
  g'.totalWritten = g.totalWritten + 2 ∧ g'.totalDropped = g.totalDropped + dropped ∧ g'.maxFill = max g.maxFill g'.fill ∧
  g'.avgSum = g.avgSum + g'.fill ∧ g'.avgCnt = g.avgCnt + 1 ∧
  g'.size = g.size ∧ g'.policy = g.policy ∧ g'.targetLatency = g.targetLatency ∧ g'.debugOverlay = g.debugOverlay

/-- A push that refused its pair, left `kept` in the queue and discarded `dropped` samples, the refused two among them (R415). -/
def PairRefused (g g' : Ring) (kept : List Sample) (dropped rd : Nat) : Prop :=
  g'.contents = kept ∧ g' = { g with rd := rd, fill := kept.length, totalDropped := g.totalDropped + dropped }

/-- What a stage of the reverb writes (R317): with the write gate on, the cell at the position that register cell `m` gives takes `x` and no
other cell of sound RAM changes; with the gate off none does. -/
def StageStore (c : Config) (m : CellId) (x : Int) (s t : State) : Prop :=
  let a := s.rvAddr (4 * (s.reg m).toNat)
  (((s.reg 0xD5).getLsbD 7 = true ∨ c.rvbWriteAlways = true) →
    (t.ramAt a).toInt = x ∧ ∀ b, b ≠ a.toNat → t.ram.read b = s.ram.read b) ∧
  ((s.reg 0xD5).getLsbD 7 = false → c.rvbWriteAlways = false → t.ram = s.ram)

/-- A stage that makes watched accesses to the given cells of sound RAM (R86, R87, R444): nothing but sound RAM and the latch changes, and the
latch is the old one, or set since the watchdog is on and one of the cells is the trigger. -/
def WatchedAccesses (cells : List Index) (s t : State) : Prop :=
  t = { s with ram := t.ram, irqLatch := t.irqLatch } ∧
  t.irqLatch = (s.irqLatch || ((s.reg 0xD5).getLsbD 6 && cells.any fun i => decide (i.toNat = 4 * (s.reg 0xD2).toNat)))

/-- The cell that a reverb write at an offset accesses, none with the gate closed (R317). -/
def gatedCell (c : Config) (off : Int) (s : State) : List Index :=
  if (s.reg 0xD5).getLsbD 7 || c.rvbWriteAlways then [s.rvAddr off] else []

/-- The reset table of R470. The ring's size is the parameter RING_DEFAULT_SIZE rounded up to a power of two (R412); no number is named. -/
structure ResetValues (t : State) : Prop where
  regs : ∀ h, t.reg h = 0#16
  ram : ∀ a, t.ram.read a = 0#16
  latches : t.keyOn = 0#24 ∧ t.keyOff = 0#24 ∧ t.endx = 0#24 ∧ t.irqLatch = false
  counters : t.xferIndex = 0#18 ∧ t.capIndex = 0#9 ∧ t.resyncAcc = 0
  noise : t.nCnt1 = 0#16 ∧ t.nCnt2 = 0#8 ∧ t.lfsr = 0#16
  mainVol : t.mvL = { level := 0#16, divider := 0#16 } ∧ t.mvR = { level := 0#16, divider := 0#16 }
  cd : t.cdL = 0#16 ∧ t.cdR = 0#16
  voices : ∀ v, t.voice v =
    { volL := { level := 0#16, divider := 0#16 }, volR := { level := 0#16, divider := 0#16 }
      adsr := { st := .release, level := 0#16, divider := 0#16 }, phase := 0#16, curIndex := 0#18, loopIndex := 0#18
      loopForce := false, hdr := 0#16, hist0 := 0#16, hist1 := 0#16, fifo := [], startDelay := 0 }
  reverb : t.rvCursor = 0#18 ∧ t.rvPhase = false
  lines : ∀ k : Fin 39, t.dsL.get k = 0#16 ∧ t.dsR.get k = 0#16 ∧ t.usL.get k = 0#16 ∧ t.usR.get k = 0#16
  ringSize : IsRingSize t.ring.size ∧ std.ringDefaultSize ≤ t.ring.size ∧
    ∀ k, std.ringDefaultSize ≤ 2 ^ (k + 1) → t.ring.size ≤ 2 ^ (k + 1)
  ringConfig : t.ring.policy = .dropOldest ∧ t.ring.targetLatency = 0 ∧ t.ring.debugOverlay = false
  ringData : ∀ a, t.ring.buf.read a = 0#16
  ringCounters : t.ring.wr = 0 ∧ t.ring.rd = 0 ∧ t.ring.fill = 0 ∧ t.ring.maxFill = 0 ∧ t.ring.totalWritten = 0 ∧
    t.ring.totalDropped = 0 ∧ t.ring.avgSum = 0 ∧ t.ring.avgCnt = 0

/-- The read-only cells hold no stored value: writes to ENDX_LO, ENDX_HI and STATUS are ignored entirely (R367, R375). -/
def ReadOnlyCellsOk (s : State) : Prop := s.reg 0xCE = 0#16 ∧ s.reg 0xCF = 0#16 ∧ s.reg 0xD7 = 0#16

/-- Between ticks the noise counters are below their overflow (R272), and the register is not the fixed point 0xFFFF (R273). -/
def NoiseOk (s : State) : Prop := s.nCnt1.toNat < 0x8000 ∧ s.nCnt2.toNat < 8 ∧ s.lfsr ≠ 0xFFFF#16

/-- The carried host cycles are fewer than one tick's (R42, R455). -/
def ResyncOk (s : State) : Prop := s.resyncAcc < std.clockDiv

end Sys2Proof.Safety
end

