-- ==== Sys2Proof/WellFormed.lean ====
section
/-!
DEFINITION. Which instructions are well-formed: those that some command word stands for. The operand types bound every field (R120, R129);
the one check left is that an UNMAPPED row's offset is one that R130 leaves unmapped.
-/

namespace Sys2Proof

/-- The offsets that R130 maps to nothing, 0x130 and above (R85, R380). -/
def HalfOff.isUnmapped (h : HalfOff) : Bool := decide (0x130 ≤ h.toNat)

/-- Well-formedness of an instruction. -/
def Instr.wellFormed : Instr → Bool
  | .rd16Unmapped h => HalfOff.isUnmapped h
  | .wr16Unmapped h _ => HalfOff.isUnmapped h
  | _ => true

end Sys2Proof
end

