-- ==== Sys2Proof/Certificates/Slice0/Obligations.lean ====
section
/-!
DEFINITION. The statements for the provers, from the spec's numbered rules: encoding, the step, the register rows, transfers, the ring,
the tick and its units, the watchdog, and the invariants every step keeps.
-/

open Sys2Proof Sys2Proof.Machine Sys2Proof.Safety

/-- The command table of R120 with the fields of R122, R123 and R129, over every value of the two operand fields: a field that a command
does not use is ignored (R120), so each line holds for all of them. -/
def Obligations.CommandWordsDecodeAsTabled : Prop :=
  (∀ (boff : ByteOff) (data : BitVec 32),
    decode (0x0#4 ++ boff ++ data) = .nop ∧
    decode (0x1#4 ++ boff ++ data) = .rd8 boff ∧
    decode (0x2#4 ++ boff ++ data) = readRow (LogReg.decode (boff.extractLsb' 1 11)) ∧
    decode (0x3#4 ++ boff ++ data) = .rd32 boff ∧
    decode (0x4#4 ++ boff ++ data) = .push (data.extractLsb' 0 16) (data.extractLsb' 16 16) ∧
    decode (0x5#4 ++ boff ++ data) = .wr8 boff (data.extractLsb' 0 8) ∧
    decode (0x6#4 ++ boff ++ data) = writeRow (LogReg.decode (boff.extractLsb' 1 11)) (data.extractLsb' 0 16) ∧
    decode (0x7#4 ++ boff ++ data) = .wr32 boff data ∧
    decode (0x8#4 ++ boff ++ data) = .dmast data ∧
    decode (0x9#4 ++ boff ++ data) = .dmald ∧
    decode (0xA#4 ++ boff ++ data) = .tick ∧
    decode (0xB#4 ++ boff ++ data) = .resync data ∧
    decode (0xC#4 ++ boff ++ data) = .cdin (data.extractLsb' 0 16) (data.extractLsb' 16 16) ∧
    decode (0xD#4 ++ boff ++ data) = .pop data ∧
    decode (0xE#4 ++ boff ++ data) =
      .ringcfg (data.extractLsb' 0 20) (policyOfCode (data.extractLsb' 20 2)) (data.getLsbD 22) boff ∧
    decode (0xF#4 ++ boff ++ data) = .reset) ∧
  policyOfCode 0#2 = .dropOldest ∧ policyOfCode 1#2 = .dropNewest ∧ policyOfCode 2#2 = .halveBuffer ∧ policyOfCode 3#2 = .reset

/-- Words of the spec's own examples (95_test_vectors.md sections 8, 10, 11 and 13) and the commands it prints beside them; that the words of
RD16 and WR16 decode to register rows is the model's choice (assumption 7). -/
def Obligations.ExampleWordsDecodeAsPrinted : Prop :=
  decode 0xF00000000000#48 = .reset ∧
  decode 0x61A400000100#48 = .wr16IrqAddr 0x0100#16 ∧
  decode 0x61AA00000040#48 = .wr16Control 0x0040#16 ∧
  decode 0x61A600000100#48 = .wr16XferAddr 0x0100#16 ∧
  decode 0x61A800001234#48 = .wr16XferFifo 0x1234#16 ∧
  decode 0x21AE00000000#48 = .rd16Status ∧
  decode 0x8000BEEF1234#48 = .dmast 0xBEEF1234#32 ∧
  decode 0x900000000000#48 = .dmald ∧
  decode 0x600400001234#48 = .wr16VPitch 0 0x1234#16 ∧
  decode 0x200400000000#48 = .rd16VPitch 0 ∧
  decode 0x5005000000AB#48 = .wr8 0x005#12 0xAB#8 ∧
  decode 0x100500000000#48 = .rd8 0x005#12 ∧
  decode 0x7006AAAA5555#48 = .wr32 0x006#12 0xAAAA5555#32 ∧
  decode 0x300500000000#48 = .rd32 0x005#12 ∧
  decode 0xE20000600064#48 = .ringcfg 100#20 .halveBuffer true 0x200#12 ∧
  decode 0x4000FFFF0001#48 = .push 1#16 0xFFFF#16 ∧
  decode 0xD00000000008#48 = .pop 8#32 ∧
  decode 0xB00000000F64#48 = .resync 3940#32 ∧
  decode 0xC00020004000#48 = .cdin 0x4000#16 0x2000#16 ∧
  decode 0xA00000000000#48 = .tick

/-- The register decode function of R130, by address range; the bounds are 0xC0, 0xFF and, half-open, 0x130. -/
def Obligations.RegisterDecodeFollowsRanges : Prop :=
  ∀ h : HalfOff,
    (h.toNat < 0xC0 → ∃ v r, LogReg.decode h = .voice v r ∧ v.val = h.toNat / 8 ∧ r.place = h.toNat % 8) ∧
    (0xC0 ≤ h.toNat → h.toNat ≤ 0xFF → ∃ g, LogReg.decode h = .glob g ∧ g.cell.val = h.toNat) ∧
    (0x100 ≤ h.toNat → h.toNat < 0x130 →
      ∃ v, v.val = (h.toNat - 0x100) / 2 ∧ LogReg.decode h = .curVol v (if h.toNat % 2 = 0 then .left else .right)) ∧
    (0x130 ≤ h.toNat → LogReg.decode h = .unmapped h)

/-- Every offset has one register and every register one offset (R32: "no aliases"; R33, R379, R380). -/
def Obligations.OffsetsAndRegistersAreInverse : Prop :=
  (∀ h : HalfOff, (LogReg.decode h).offset = h) ∧
  (∀ r : LogReg, (∀ h, r = .unmapped h → 0x130 ≤ h.toNat) → LogReg.decode r.offset = r) ∧
  ∀ r q : LogReg, ∀ k, r.storeCell = some k → q.storeCell = some k → r = q

/-- Decode and encode agree for every well-formed instruction and every operand value: the word decodes to the instruction itself, and the
words of RD16 and WR16 to the register row that refines them (R130; assumption 7). Every command word decodes to a well-formed instruction
(R125: "No command word is illegal"), and re-encoding what a word decodes to loses none of its meaning. -/
def Obligations.DecodeInvertsEncode : Prop :=
  (∀ i : Instr, i.wellFormed = true → decode (encode i) = i.resolve) ∧
  (∀ i : Instr, (∀ boff, i ≠ .rd16 boff) → (∀ boff val, i ≠ .wr16 boff val) → i.resolve = i) ∧
  (∀ boff, (Instr.rd16 boff).resolve = readRow (LogReg.decode (halfOff boff))) ∧
  (∀ boff val, (Instr.wr16 boff val).resolve = writeRow (LogReg.decode (halfOff boff)) val) ∧
  ∀ w : CmdWord, (decode w).wellFormed = true ∧ decode (encode (decode w)) = decode w

/-- A step takes the next command of the port, clears the last response and is `exec` of the decoded instruction (R101, R120); with no
command issued the state is held (R460). The port and the response are the model's own fields (assumptions 4 and 5). -/
def Obligations.StepRunsDecodedCommand : Prop :=
  (∀ (s : State) (w : CmdWord) (rest : List CmdWord), s.port = w :: rest →
    step s = exec (decode w) { s with port := rest, resp := .none }) ∧
  (∀ s : State, s.port = [] → step s = .next s) ∧
  ∀ (s : State) (w : CmdWord), step (s.withFetchWord 48 w.toNat) = exec (decode w) { s with resp := .none }

/-- R440: every command completes, for every operand value and every machine state: no fault, no refusal. -/
def Obligations.EveryCommandCompletes : Prop :=
  (∀ (i : Instr) (s : State), ∃ t, exec i s = .next t) ∧ ∀ s : State, ∃ t, step s = .next t

/-- The stored cells of R33: each read row answers its cell and changes nothing, each write row stores and does nothing else. The voice
cells are at 8v + 0..5 (R351 to R356); then MAIN_VOL, RVB_OUT, FM, CD_VOL (R359 to R361, R364, R376) and the reverb table (R378). -/
def Obligations.StoredCellsReadAndWrite : Prop :=
  (∀ v : VoiceId,
    StoredCell (.rd16VVolL v) (.wr16VVolL v) (voiceCell v .volL) ∧ (voiceCell v .volL).val = 8 * v.val ∧
    StoredCell (.rd16VVolR v) (.wr16VVolR v) (voiceCell v .volR) ∧ (voiceCell v .volR).val = 8 * v.val + 1 ∧
    StoredCell (.rd16VPitch v) (.wr16VPitch v) (voiceCell v .pitch) ∧ (voiceCell v .pitch).val = 8 * v.val + 2 ∧
    StoredCell (.rd16VStart v) (.wr16VStart v) (voiceCell v .start) ∧ (voiceCell v .start).val = 8 * v.val + 3 ∧
    StoredCell (.rd16VAdsrLo v) (.wr16VAdsrLo v) (voiceCell v .adsrLo) ∧ (voiceCell v .adsrLo).val = 8 * v.val + 4 ∧
    StoredCell (.rd16VAdsrHi v) (.wr16VAdsrHi v) (voiceCell v .adsrHi) ∧ (voiceCell v .adsrHi).val = 8 * v.val + 5) ∧
  (
    StoredCell .rd16MainVolL .wr16MainVolL 0xC0 ∧
    StoredCell .rd16MainVolR .wr16MainVolR 0xC1 ∧
    StoredCell .rd16RvbOutL .wr16RvbOutL 0xC2 ∧
    StoredCell .rd16RvbOutR .wr16RvbOutR 0xC3 ∧
    StoredCell .rd16FmLo .wr16FmLo 0xC8 ∧
    StoredCell .rd16FmHi .wr16FmHi 0xC9 ∧
    StoredCell .rd16CdVolL .wr16CdVolL 0xD8 ∧
    StoredCell .rd16CdVolR .wr16CdVolR 0xD9) ∧
  StoredCell .rd16RvbDAPF1 .wr16RvbDAPF1 0xE0 ∧
  StoredCell .rd16RvbDAPF2 .wr16RvbDAPF2 0xE1 ∧
  StoredCell .rd16RvbVIIR .wr16RvbVIIR 0xE2 ∧
  StoredCell .rd16RvbVCOMB1 .wr16RvbVCOMB1 0xE3 ∧
  StoredCell .rd16RvbVCOMB2 .wr16RvbVCOMB2 0xE4 ∧
  StoredCell .rd16RvbVCOMB3 .wr16RvbVCOMB3 0xE5 ∧
  StoredCell .rd16RvbVCOMB4 .wr16RvbVCOMB4 0xE6 ∧
  StoredCell .rd16RvbVWALL .wr16RvbVWALL 0xE7 ∧
  StoredCell .rd16RvbVAPF1 .wr16RvbVAPF1 0xE8 ∧
  StoredCell .rd16RvbVAPF2 .wr16RvbVAPF2 0xE9 ∧
  StoredCell .rd16RvbMLSAME .wr16RvbMLSAME 0xEA ∧
  StoredCell .rd16RvbMRSAME .wr16RvbMRSAME 0xEB ∧
  StoredCell .rd16RvbMLCOMB1 .wr16RvbMLCOMB1 0xEC ∧
  StoredCell .rd16RvbMRCOMB1 .wr16RvbMRCOMB1 0xED ∧
  StoredCell .rd16RvbMLCOMB2 .wr16RvbMLCOMB2 0xEE ∧
  StoredCell .rd16RvbMRCOMB2 .wr16RvbMRCOMB2 0xEF ∧
  StoredCell .rd16RvbDLSAME .wr16RvbDLSAME 0xF0 ∧
  StoredCell .rd16RvbDRSAME .wr16RvbDRSAME 0xF1 ∧
  StoredCell .rd16RvbMLDIFF .wr16RvbMLDIFF 0xF2 ∧
  StoredCell .rd16RvbMRDIFF .wr16RvbMRDIFF 0xF3 ∧
  StoredCell .rd16RvbMLCOMB3 .wr16RvbMLCOMB3 0xF4 ∧
  StoredCell .rd16RvbMRCOMB3 .wr16RvbMRCOMB3 0xF5 ∧
  StoredCell .rd16RvbMLCOMB4 .wr16RvbMLCOMB4 0xF6 ∧
  StoredCell .rd16RvbMRCOMB4 .wr16RvbMRCOMB4 0xF7 ∧
  StoredCell .rd16RvbDLDIFF .wr16RvbDLDIFF 0xF8 ∧
  StoredCell .rd16RvbDRDIFF .wr16RvbDRDIFF 0xF9 ∧
  StoredCell .rd16RvbMLAPF1 .wr16RvbMLAPF1 0xFA ∧
  StoredCell .rd16RvbMRAPF1 .wr16RvbMRAPF1 0xFB ∧
  StoredCell .rd16RvbMLAPF2 .wr16RvbMLAPF2 0xFC ∧
  StoredCell .rd16RvbMRAPF2 .wr16RvbMRAPF2 0xFD ∧
  StoredCell .rd16RvbVLIN .wr16RvbVLIN 0xFE ∧
  StoredCell .rd16RvbVRIN .wr16RvbVRIN 0xFF

/-- The cells whose rules say no more than store and read back (R365, R366, R368, R374, R377). -/
def Obligations.PlainStorageCells : Prop :=
  StoredCell .rd16NoiseLo .wr16NoiseLo 0xCA ∧
  StoredCell .rd16NoiseHi .wr16NoiseHi 0xCB ∧
  StoredCell .rd16RvbEnLo .wr16RvbEnLo 0xCC ∧
  StoredCell .rd16RvbEnHi .wr16RvbEnHi 0xCD ∧
  StoredCell .rd16CellD0 .wr16CellD0 0xD0 ∧
  StoredCell .rd16XferCtrl .wr16XferCtrl 0xD6 ∧
  StoredCell .rd16CellDA .wr16CellDA 0xDA ∧
  StoredCell .rd16CellDB .wr16CellDB 0xDB ∧
  StoredCell .rd16CellDC .wr16CellDC 0xDC ∧
  StoredCell .rd16CellDD .wr16CellDD 0xDD ∧
  StoredCell .rd16CellDE .wr16CellDE 0xDE ∧
  StoredCell .rd16CellDF .wr16CellDF 0xDF

/-- R357, V_LEVEL: the write stores and sets the envelope level to the signed value clamped to 0..0x7FFF, leaving state and divider; the
read answers the live level, not the stored word. -/
def Obligations.VoiceLevelRegister : Prop :=
  ∀ (v : VoiceId) (s : State),
    exec (.rd16VLevel v) s = .next { s with resp := .half (s.voice v).adsr.level } ∧
    ∀ x : Cell, ∃ t, exec (.wr16VLevel v x) s = .next t ∧
      t.reg (voiceCell v .level) = x ∧ (voiceCell v .level).val = 8 * v.val + 6 ∧
      (∀ k, k ≠ voiceCell v .level → t.reg k = s.reg k) ∧
      t.voice v = { s.voice v with adsr := { (s.voice v).adsr with level := if x.toInt < 0 then 0#16 else x } } ∧
      (∀ w, w ≠ v → t.voice w = s.voice w) ∧ t = { s with regs := t.regs, voices := t.voices }

/-- R358, V_REPEAT: the write stores, sets the loop index to four times the value and raises the override; the read answers the live loop
index divided by 4. While the override is raised a header's loop point is ignored; key-on drops the override and keeps the loop index. -/
def Obligations.VoiceRepeatRegister : Prop :=
  (∀ (v : VoiceId) (s : State),
    (∃ y : Cell, exec (.rd16VRepeat v) s = .next { s with resp := .half y } ∧ y.toNat = (s.voice v).loopIndex.toNat / 4) ∧
    ∀ x : Cell, ∃ t, exec (.wr16VRepeat v x) s = .next t ∧
      t.reg (voiceCell v .repeatIx) = x ∧ (voiceCell v .repeatIx).val = 8 * v.val + 7 ∧
      (∀ k, k ≠ voiceCell v .repeatIx → t.reg k = s.reg k) ∧
      t.voice v = { s.voice v with loopIndex := x ++ 0#2, loopForce := true } ∧ (x ++ 0#2 : Index).toNat = 4 * x.toNat ∧
      (∀ w, w ≠ v → t.voice w = s.voice w) ∧ t = { s with regs := t.regs, voices := t.voices }) ∧
  (∀ V : Voice, V.loopForce = true → headerCapture V = V) ∧
  ∀ (c : Config) (v : VoiceId) (s : State), ((voiceRestart c v s).voice v).loopForce = false ∧
    ((voiceRestart c v s).voice v).loopIndex = (s.voice v).loopIndex

/-- R362 and R363: KON and KOFF writes store and OR their mask into the latch, bit i for voice i (LO) or 16 + i (HI, low 8 bits); the
reads answer the last word written, not the latch. -/
def Obligations.KeyLatchRegisters : Prop :=
  (ReadsCell .rd16KonLo 0xC4 ∧ ReadsCell .rd16KonHi 0xC5 ∧ ReadsCell .rd16KoffLo 0xC6 ∧ ReadsCell .rd16KoffHi 0xC7) ∧
  ∀ (s : State) (x : Cell),
    (∃ t, exec (.wr16KonLo x) s = .next t ∧ t.reg 0xC4 = x ∧ (∀ k, k ≠ 0xC4 → t.reg k = s.reg k) ∧
      (∀ i, t.keyOn.getLsbD i = (s.keyOn.getLsbD i || x.getLsbD i)) ∧ t = { s with regs := t.regs, keyOn := t.keyOn }) ∧
    (∃ t, exec (.wr16KonHi x) s = .next t ∧ t.reg 0xC5 = x ∧ (∀ k, k ≠ 0xC5 → t.reg k = s.reg k) ∧
      (∀ i, t.keyOn.getLsbD i = (s.keyOn.getLsbD i || (decide (16 ≤ i ∧ i < 24) && x.getLsbD (i - 16)))) ∧
      t = { s with regs := t.regs, keyOn := t.keyOn }) ∧
    (∃ t, exec (.wr16KoffLo x) s = .next t ∧ t.reg 0xC6 = x ∧ (∀ k, k ≠ 0xC6 → t.reg k = s.reg k) ∧
      (∀ i, t.keyOff.getLsbD i = (s.keyOff.getLsbD i || x.getLsbD i)) ∧ t = { s with regs := t.regs, keyOff := t.keyOff }) ∧
    (∃ t, exec (.wr16KoffHi x) s = .next t ∧ t.reg 0xC7 = x ∧ (∀ k, k ≠ 0xC7 → t.reg k = s.reg k) ∧
      (∀ i, t.keyOff.getLsbD i = (s.keyOff.getLsbD i || (decide (16 ≤ i ∧ i < 24) && x.getLsbD (i - 16)))) ∧
      t = { s with regs := t.regs, keyOff := t.keyOff })

/-- The read-only registers. ENDX_LO and ENDX_HI (R367): reads answer the voice-status mask's halves, the high one zero-extended. STATUS (R169,
R375): the word is computed at the read, bit by bit as the table says. Writes to all three are ignored entirely. -/
def Obligations.ReadOnlyRegisters : Prop :=
  ∀ (s : State) (x : Cell),
    (exec (.wr16EndxLo x) s = .next s ∧ exec (.wr16EndxHi x) s = .next s ∧ exec (.wr16Status x) s = .next s) ∧
    (∃ y : Cell, exec .rd16EndxLo s = .next { s with resp := .half y } ∧ ∀ i, i < 16 → y.getLsbD i = s.endx.getLsbD i) ∧
    (∃ y : Cell, exec .rd16EndxHi s = .next { s with resp := .half y } ∧
      (∀ i, i < 8 → y.getLsbD i = s.endx.getLsbD (16 + i)) ∧ ∀ i, 8 ≤ i → y.getLsbD i = false) ∧
    ∃ y : Cell, exec .rd16Status s = .next { s with resp := .half y } ∧
      (∀ i, i < 6 → y.getLsbD i = (s.reg 0xD5).getLsbD i) ∧
      y.getLsbD 6 = s.irqLatch ∧
      y.getLsbD 7 = (s.reg 0xD5).getLsbD 5 ∧
      y.getLsbD 8 = decide ((s.reg 0xD5).extractLsb' 4 2 = 2#2) ∧
      y.getLsbD 9 = decide ((s.reg 0xD5).extractLsb' 4 2 = 3#2) ∧
      y.getLsbD 10 = false ∧
      y.getLsbD 11 = s.capIndex.getLsbD 8 ∧
      ∀ i, 12 ≤ i → y.getLsbD i = false

/-- R379 and R380: the current-level registers answer the live volume level of their voice and side; the unmapped offsets answer 0; writes
to both have no effect. -/
def Obligations.CurrentLevelAndUnmapped : Prop :=
  ∀ s : State,
    (∀ v : VoiceId, exec (.rd16VCurvolL v) s = .next { s with resp := .half (s.voice v).volL.level } ∧
      exec (.rd16VCurvolR v) s = .next { s with resp := .half (s.voice v).volR.level } ∧
      ∀ x, exec (.wr16VCurvolL v x) s = .next s ∧ exec (.wr16VCurvolR v x) s = .next s) ∧
    ∀ h : HalfOff, exec (.rd16Unmapped h) s = .next { s with resp := .half 0#16 } ∧ ∀ x, exec (.wr16Unmapped h x) s = .next s

/-- R369 and R371: RVB_BASE stores and moves the reverb cursor to four times the value; XFER_ADDR stores and sets the transfer index to four
times the value, with no IRQ check (the latch is as before); the reads answer the stored words. -/
def Obligations.BaseAndTransferAddress : Prop :=
  (ReadsCell .rd16RvbBase 0xD1 ∧ ReadsCell .rd16XferAddr 0xD3) ∧
  ∀ (s : State) (x : Cell),
    (∃ t, exec (.wr16RvbBase x) s = .next t ∧ t.reg 0xD1 = x ∧ (∀ k, k ≠ 0xD1 → t.reg k = s.reg k) ∧
      t.rvCursor.toNat = 4 * x.toNat ∧ t = { s with regs := t.regs, rvCursor := t.rvCursor }) ∧
    ∃ t, exec (.wr16XferAddr x) s = .next t ∧ t.reg 0xD3 = x ∧ (∀ k, k ≠ 0xD3 → t.reg k = s.reg k) ∧
      t.xferIndex.toNat = 4 * x.toNat ∧ t = { s with regs := t.regs, xferIndex := t.xferIndex }

/-- R370 and R373: IRQ_ADDR stores, then checks the transfer index against the new address; CONTROL stores, then with bit 6 set checks the
transfer index, and with bit 6 clear drops the latch; the reads answer the stored words. -/
def Obligations.IrqAddressAndControl : Prop :=
  (ReadsCell .rd16IrqAddr 0xD2 ∧ ReadsCell .rd16Control 0xD5) ∧
  ∀ (s : State) (x : Cell),
    (∃ t, exec (.wr16IrqAddr x) s = .next t ∧ t.reg 0xD2 = x ∧ (∀ k, k ≠ 0xD2 → t.reg k = s.reg k) ∧
      t.irqLatch = (s.irqLatch || ((s.reg 0xD5).getLsbD 6 && decide (s.xferIndex.toNat = 4 * x.toNat))) ∧
      t = { s with regs := t.regs, irqLatch := t.irqLatch }) ∧
    ∃ t, exec (.wr16Control x) s = .next t ∧ t.reg 0xD5 = x ∧ (∀ k, k ≠ 0xD5 → t.reg k = s.reg k) ∧
      t.irqLatch = (if x.getLsbD 6 then s.irqLatch || decide (s.xferIndex.toNat = 4 * (s.reg 0xD2).toNat) else false) ∧
      t = { s with regs := t.regs, irqLatch := t.irqLatch }

/-- R372, XFER_FIFO: the write stores, puts the word into sound RAM at the transfer index (a watched write: R87), and advances the index
modulo the RAM size; the read answers the last word written and moves nothing. -/
def Obligations.TransferFifo : Prop :=
  ReadsCell .rd16XferFifo 0xD4 ∧
  ∀ (s : State) (x : Cell), ∃ t, exec (.wr16XferFifo x) s = .next t ∧ t.reg 0xD4 = x ∧ (∀ k, k ≠ 0xD4 → t.reg k = s.reg k) ∧
    (s.ram.wf → t.ram.read s.xferIndex.toNat = x) ∧ (∀ a, a ≠ s.xferIndex.toNat → t.ram.read a = s.ram.read a) ∧
    t.xferIndex.toNat = (s.xferIndex.toNat + 1) % 0x40000 ∧
    t.irqLatch = (s.irqLatch || ((s.reg 0xD5).getLsbD 6 && decide (s.xferIndex.toNat = 4 * (s.reg 0xD2).toNat))) ∧
    t = { s with regs := t.regs, ram := t.ram, xferIndex := t.xferIndex, irqLatch := t.irqLatch }

/-- R386, DMAST: two watched writes at the transfer index and the next, the low half first; the index advances by two modulo the RAM
size. -/
def Obligations.DmaStoreWritesTwoCells : Prop :=
  ∀ (s : State) (w : BitVec 32), ∃ t, exec (.dmast w) s = .next t ∧
    (s.ram.wf → t.ram.read s.xferIndex.toNat = w.extractLsb' 0 16 ∧
      t.ram.read ((s.xferIndex.toNat + 1) % 0x40000) = w.extractLsb' 16 16) ∧
    (∀ a, a ≠ s.xferIndex.toNat → a ≠ (s.xferIndex.toNat + 1) % 0x40000 → t.ram.read a = s.ram.read a) ∧
    t.xferIndex.toNat = (s.xferIndex.toNat + 2) % 0x40000 ∧
    t.irqLatch = (s.irqLatch || ((s.reg 0xD5).getLsbD 6 && (decide (s.xferIndex.toNat = 4 * (s.reg 0xD2).toNat) ||
      decide ((s.xferIndex.toNat + 1) % 0x40000 = 4 * (s.reg 0xD2).toNat)))) ∧
    t = { s with ram := t.ram, xferIndex := t.xferIndex, irqLatch := t.irqLatch }

/-- R387, DMALD: the cells at the transfer index (low half) and the next (high half), unwatched; the index advances by two and the one
check is of the advanced index. -/
def Obligations.DmaLoadReadsTwoCells : Prop :=
  ∀ s : State, ∃ t, exec .dmald s = .next t ∧
    t.resp = .word (s.ram.read ((s.xferIndex.toNat + 1) % 0x40000) ++ s.ram.read s.xferIndex.toNat) ∧
    t.xferIndex.toNat = (s.xferIndex.toNat + 2) % 0x40000 ∧
    t.irqLatch = (s.irqLatch ||
      ((s.reg 0xD5).getLsbD 6 && decide ((s.xferIndex.toNat + 2) % 0x40000 = 4 * (s.reg 0xD2).toNat))) ∧
    t = { s with xferIndex := t.xferIndex, irqLatch := t.irqLatch, resp := t.resp }

/-- The commands RD16 and WR16 at an offset are the register row of the logical register that the offset decodes to (R130, R350, R381). -/
def Obligations.GenericAccessesAreTheirRows : Prop :=
  (∀ (boff : ByteOff) (s : State), ∃ t, exec (.rd16 boff) s = .next t ∧ exec (readRow (LogReg.decode (halfOff boff))) s = .next t) ∧
  ∀ (boff : ByteOff) (x : Cell) (s : State),
    ∃ t, exec (.wr16 boff x) s = .next t ∧ exec (writeRow (LogReg.decode (halfOff boff)) x) s = .next t

/-- R382 and R384: RD8 answers the byte lane of the 16-bit read that bit 0 of the offset selects; RD32 the two 16-bit reads of its word,
the cell at the lower offset in the low half. Neither changes anything but the response. -/
def Obligations.ByteAndWordReads : Prop :=
  ∀ (boff : ByteOff) (s : State),
    (∃ x : Cell, exec (.rd16 boff) s = .next { s with resp := .half x } ∧
      exec (.rd8 boff) s =
        .next { s with resp := .byte (if boff.getLsbD 0 then x.extractLsb' 8 8 else x.extractLsb' 0 8) }) ∧
    ∃ lo hi : Cell, exec (.rd16 (boff &&& 0xFFC#12)) s = .next { s with resp := .half lo } ∧
      exec (.rd16 ((boff &&& 0xFFC#12) + 2)) s = .next { s with resp := .half hi } ∧
      exec (.rd32 boff) s = .next { s with resp := .word (hi ++ lo) }

/-- R383 and R385: WR8 at an even offset is WR16 of the zero-extended byte, at an odd one it is ignored; WR32 is WR16 of its low half at the
word's base and then of its high half two bytes up. -/
def Obligations.ByteAndWordWrites : Prop :=
  (∀ (boff : ByteOff) (b : BitVec 8) (s : State),
    (boff.getLsbD 0 = false → ∃ t, exec (.wr8 boff b) s = .next t ∧ exec (.wr16 boff (0#8 ++ b)) s = .next t) ∧
    (boff.getLsbD 0 = true → exec (.wr8 boff b) s = .next s)) ∧
  ∀ (boff : ByteOff) (w : BitVec 32) (s : State), ∃ t u,
    exec (.wr16 (boff &&& 0xFFC#12) (w.extractLsb' 0 16)) s = .next t ∧
    exec (.wr16 ((boff &&& 0xFFC#12) + 2) (w.extractLsb' 16 16)) t = .next u ∧
    exec (.wr32 boff w) s = .next u

/-- No register read has a side effect (R84, R381): a step whose command word is RD8, RD16 or RD32 changes nothing but the model's own port
and response. -/
def Obligations.ReadCommandsChangeNothing : Prop :=
  ∀ (s : State) (w : CmdWord) (rest : List CmdWord), s.port = w :: rest →
    w.extractLsb' 44 4 = 1#4 ∨ w.extractLsb' 44 4 = 2#4 ∨ w.extractLsb' 44 4 = 3#4 →
    ∃ r, step s = .next { s with port := rest, resp := r }

/-- Registers are separate (R32, R33, R350): a WR16 changes what RD16 answers at no other offset, STATUS aside, which shows the latch and
CONTROL (R169); and at its own offset RD16 answers the value written, V_LEVEL aside (R357) and where writes are ignored. -/
def Obligations.RegistersAreSeparate : Prop :=
  ∀ (s : State) (a b : ByteOff) (x : Cell), ∃ t y z,
    exec (.wr16 a x) s = .next t ∧ exec (.rd16 b) s = .next { s with resp := .half y } ∧
    exec (.rd16 b) t = .next { t with resp := .half z } ∧
    ((halfOff b).toNat ≠ (halfOff a).toNat → (halfOff b).toNat ≠ 0xD7 → z = y) ∧
    ((halfOff b).toNat = (halfOff a).toNat → (halfOff a).toNat ≤ 0xFF → ¬ ((halfOff a).toNat < 0xC0 ∧ (halfOff a).toNat % 8 = 6) →
      (halfOff a).toNat ≠ 0xCE → (halfOff a).toNat ≠ 0xCF → (halfOff a).toNat ≠ 0xD7 → z = x)

/-- The housekeeping commands: NOP has no effect (R388); CDIN sets the CD latch and nothing else (R389); RESET puts every piece of the
spec's state to its reset value, from any state (R470), and the model's reset state has the same values. That RESET leaves the port, a field
of the model's own, is the model's choice (assumption 4). -/
def Obligations.NopCdinAndReset : Prop :=
  (∀ s : State, exec .nop s = .next s ∧ ∀ l r : Sample, exec (.cdin l r) s = .next { s with cdL := l, cdR := r }) ∧
  (∀ s : State, ∃ t, exec .reset s = .next t ∧ ResetValues t ∧ t.port = s.port) ∧ ResetValues State.reset

/-- R412: RINGCFG creates an empty ring whose size is the least power of two that is at least 2 and the requested size. -/
def Obligations.RingConfigCreatesEmptyRing : Prop :=
  ∀ (size : BitVec 20) (p : RingPolicy) (overlay : Bool) (latency : BitVec 12) (s : State), ∃ g,
    exec (.ringcfg size p overlay latency) s = .next { s with ring := g } ∧
    IsRingSize g.size ∧ size.toNat ≤ g.size ∧ (∀ k, size.toNat ≤ 2 ^ (k + 1) → g.size ≤ 2 ^ (k + 1)) ∧
    g.policy = p ∧ g.targetLatency = latency.toNat ∧ g.debugOverlay = overlay ∧ (∀ a, g.buf.read a = 0#16) ∧
    g.wr = 0 ∧ g.rd = 0 ∧ g.fill = 0 ∧ g.maxFill = 0 ∧ g.totalWritten = 0 ∧ g.totalDropped = 0 ∧ g.avgSum = 0 ∧ g.avgCnt = 0

/-- R415 and R421, the ring as a queue: with two free slots the pair is appended; else the policy runs. DropOldest drops the two oldest
samples and appends; DropNewest refuses the pair; HalveBuffer drops max(2, fill / 2) and refuses the pair, or appends it if
HALVE_ADMITS_NEW; Reset drops all, moves both cursors to 0 and appends (so that the write cursor is then 2 modulo the size). PUSH answers whether there was
room. The machine runs with HALVE_ADMITS_NEW false, R416's default (assumption 3). -/
def Obligations.PushFollowsPolicy : Prop :=
  std.halveAdmitsNew = false ∧
  (∀ (l r : Sample) (s : State),
    exec (.push l r) s = .next { s with ring := (s.ring.push std l r).2, resp := .flag (s.ring.push std l r).1 }) ∧
  ∀ (c : Config) (l r : Sample) (g : Ring), RingOk g →
    ((g.push c l r).1 = decide (2 ≤ g.size - g.fill)) ∧
    (2 ≤ g.size - g.fill → PairStored g (g.push c l r).2 g.contents 0 g.rd ((g.wr + 2) % g.size) l r) ∧
    (g.size - g.fill < 2 → g.policy = .dropOldest →
      PairStored g (g.push c l r).2 (g.contents.drop 2) 2 ((g.rd + 2) % g.size) ((g.wr + 2) % g.size) l r) ∧
    (g.size - g.fill < 2 → g.policy = .dropNewest → PairRefused g (g.push c l r).2 g.contents 2 g.rd) ∧
    (g.size - g.fill < 2 → g.policy = .halveBuffer → c.halveAdmitsNew = false →
      PairRefused g (g.push c l r).2 (g.contents.drop (max 2 (g.fill / 2))) (max 2 (g.fill / 2) + 2)
        ((g.rd + max 2 (g.fill / 2)) % g.size)) ∧
    (g.size - g.fill < 2 → g.policy = .halveBuffer → c.halveAdmitsNew = true →
      PairStored g (g.push c l r).2 (g.contents.drop (max 2 (g.fill / 2))) (max 2 (g.fill / 2))
        ((g.rd + max 2 (g.fill / 2)) % g.size) ((g.wr + 2) % g.size) l r) ∧
    (g.size - g.fill < 2 → g.policy = .reset → PairStored g (g.push c l r).2 [] g.fill 0 (2 % g.size) l r)

/-- R420, POP: it answers the min(max_pairs, fill / 2) oldest pairs in order, removes them from the queue, and changes no statistic and no
cell of the buffer. The queue is what lies in the buffer from the read cursor on, wrapping. -/
def Obligations.PopTakesOldestPairs : Prop :=
  (∀ (g : Ring) (i : Nat), i < g.fill → g.contents[i]? = some (g.buf.read ((g.rd + i) % g.size))) ∧
  ∀ (n : BitVec 32) (s : State), ∃ g : Ring,
    exec (.pop n) s =
      .next { s with ring := g, resp := .samples (s.ring.contents.take (2 * min n.toNat (s.ring.fill / 2))) } ∧
    g = { s.ring with rd := (s.ring.rd + 2 * min n.toNat (s.ring.fill / 2)) % s.ring.size
                      fill := s.ring.fill - 2 * min n.toNat (s.ring.fill / 2) } ∧
    g.contents = s.ring.contents.drop (2 * min n.toNat (s.ring.fill / 2))

/-- R431, the average: 0 with no sample, else the quotient of the sums; a push that stored its pair adds the fill after it and counts one
more, any other push adds nothing; a created ring starts with no sample. -/
def Obligations.AverageFillSamplesStoredPushes : Prop :=
  (∀ g : Ring, (g.avgCnt = 0 → g.average = 0) ∧ (g.avgCnt ≠ 0 → g.average * g.avgCnt = g.avgSum)) ∧
  (∀ (c : Config) (l r : Sample) (g : Ring),
    ((g.push c l r).2.totalWritten = g.totalWritten + 2 ∧ (g.push c l r).2.avgSum = g.avgSum + (g.push c l r).2.fill ∧
      (g.push c l r).2.avgCnt = g.avgCnt + 1) ∨
    ((g.push c l r).2.totalWritten = g.totalWritten ∧ (g.push c l r).2.avgSum = g.avgSum ∧
      (g.push c l r).2.avgCnt = g.avgCnt)) ∧
  ∀ (n : Nat) (p : RingPolicy) (latency : Nat) (overlay : Bool),
    (Ring.create n p latency overlay).avgSum = 0 ∧ (Ring.create n p latency overlay).avgCnt = 0

/-- The ring's invariant is kept by every step of the machine, from every state: R411, and the canonical form of the buffer, which is the
model's own (assumption 6). -/
def Obligations.RingInvariantKept : Prop := ∀ s t : State, RingOk s.ring → step s = .next t → RingOk t.ring

/-- R280, the twelve steps of TICK in their order, over the steps' own definitions: voices 0 to 23, noise, mute, CD capture, CD blend, reverb
cycle, output stage, main sweep, capture index, key latches, ring push. The CD capture is two watched writes, left first (R298); a watched
write checks its index and stores (R87). CONTROL bit 14 is `unmute` (R296). The primitives are those of R172, R176 and R177. -/
def Obligations.TickRunsItsSteps : Prop :=
  voiceIds.map Fin.val = List.range 24 ∧
  (∀ (x y : Int) (w : Cell), sat16 x = min 32767 (max (-32768) x) ∧ mul15 x y = x * y / 2 ^ 15 ∧ s16 w = w.toInt ∧
    ((u16 x).toNat : Int) = x % 65536) ∧
  (∀ (i : Index) (x : Cell) (s : State), memWrite i x s =
    { s with ram := s.ram.write i.toNat x
             irqLatch := s.irqLatch || ((s.reg 0xD5).getLsbD 6 && decide (i.toNat = 4 * (s.reg 0xD2).toNat)) }) ∧
  ∀ s : State,
    let p := voiceIds.foldl (voiceCycle std) (s, { lmix := 0, rmix := 0, lrev := 0, rrev := 0, fmPrev := 0 })
    let s3 := noiseCycle std p.1
    let m4 : Mix := if (s3.reg 0xD5).getLsbD 14 then p.2 else { lmix := 0, rmix := 0, lrev := 0, rrev := 0, fmPrev := 0 }
    let s5 := memWrite (0x200#18 ||| (0#9 ++ s3.capIndex)) s3.cdR (memWrite (0#9 ++ s3.capIndex) s3.cdL s3)
    let m6 := cdBlend s5 m4
    let q := reverbCycle std (sat16 m6.lrev) (sat16 m6.rrev) s5
    let l := sat16 (mul15 (sat16 (m6.lmix + q.1.1)) (s16 q.2.mvL.level))
    let r := sat16 (mul15 (sat16 (m6.rmix + q.1.2)) (s16 q.2.mvR.level))
    let s9 := { q.2 with mvL := sweepCycle (q.2.reg 0xC0) q.2.mvL, mvR := sweepCycle (q.2.reg 0xC1) q.2.mvR }
    let s11 := { s9 with capIndex := s9.capIndex + 1, keyOn := 0#24, keyOff := 0#24 }
    exec .tick s = .next { s11 with ring := (s11.ring.push std (u16 l) (u16 r)).2 }

/-- R282 and R290, the eleven steps of a voice cycle in their order: decoder step, sample selection (noise, or the interpolation), envelope,
capture, pan, sweep, start delay or envelope and phase, key-off then key-on, SPU disable, hand-on, mix. The machine hands on the sample
before the envelope, R217's default (assumption 3). The noise and reverb-send masks are those of R44, the configuration word that of R162;
key-off keeps the level (R241), and the restart changes neither the loop index nor the volume units (R293). -/
def Obligations.VoiceCycleRunsItsSteps : Prop :=
  std.fmSource = .preEnvelope ∧
  (∀ (s : State) (v : VoiceId) (f : Voice → Voice), (s.modVoice v f).voice v = f (s.voice v) ∧
    (∀ w, w ≠ v → (s.modVoice v f).voice w = s.voice w) ∧ s.modVoice v f = { s with voices := (s.modVoice v f).voices }) ∧
  ∀ (c : Config) (s : State) (m : Mix) (v : VoiceId),
    let selected := fun (hi lo : CellId) (u : State) =>
      if v.val < 16 then (u.reg lo).getLsbD v.val else (u.reg hi).getLsbD (v.val - 16)
    let s1 := decoderStep c v s
    let V := s1.voice v
    let raw : Int := if selected 0xCB 0xCA s1 then s16 s1.lfsr else interpolate c V
    let e := mul15 raw (s16 V.adsr.level)
    let s4 := if v = 1 then memWrite (0x400#18 ||| (0#9 ++ s1.capIndex)) (u16 e) s1
      else if v = 3 then memWrite (0x600#18 ||| (0#9 ++ s1.capIndex)) (u16 e) s1 else s1
    let s6 := s4.modVoice v fun W =>
      { W with volL := sweepCycle (s4.reg (voiceCell v .volL)) W.volL, volR := sweepCycle (s4.reg (voiceCell v .volR)) W.volR }
    let s7 := s6.modVoice v fun W =>
      if 0 < W.startDelay then { W with startDelay := W.startDelay - 1 }
      else consume (voiceStep v m.fmPrev s6) { W with adsr := adsrTick (s6.reg (voiceCell v .adsrHi) ++ s6.reg (voiceCell v .adsrLo)) W.adsr }
    let s8 := if s7.keyOff.getLsbD v.val then s7.modVoice v fun W => { W with adsr := { W.adsr with st := .release, divider := 0#16 } }
      else s7
    let restarted := fun (W : Voice) =>
      { W with adsr := { st := .attack, level := 0#16, divider := 0#16 }, phase := 0#16
               curIndex := (s8.reg (voiceCell v .start) ++ 0#2) &&& 0x3FFF8#18, hdr := 0#16, hist0 := 0#16, hist1 := 0#16, fifo := []
               loopForce := false, startDelay := c.startDelay }
    let s8' := if s8.keyOn.getLsbD v.val then { s8.modVoice v restarted with endx := s8.endx &&& ~~~(1#24 <<< v.val) } else s8
    let s9 := if (s8'.reg 0xD5).getLsbD 15 then s8'
      else s8'.modVoice v fun W => { W with adsr := { st := .release, level := 0#16, divider := 0#16 } }
    let l := mul15 e (s16 V.volL.level)
    let r := mul15 e (s16 V.volR.level)
    voiceCycle c (s, m) v =
      (s9, { lmix := m.lmix + l, rmix := m.rmix + r
             lrev := if selected 0xCD 0xCC s9 then m.lrev + l else m.lrev
             rrev := if selected 0xCD 0xCC s9 then m.rrev + r else m.rrev
             fmPrev := match c.fmSource with
               | .preEnvelope => raw
               | .postEnvelope => e })

/-- TICK completes; what it leaves unchanged (every register cell, the transfer index, the CD latch, the RESYNC remainder: R34, R42), and the
fields whose new value is plain: the capture index counts modulo 512, both key latches are cleared, the reverb side alternates and its
cursor moves after the right side only (R330), the main volume units are recomputed (R304), the ring is pushed to once (R305). -/
def Obligations.TickFrame : Prop :=
  ∀ s : State, ∃ t, exec .tick s = .next t ∧
    (∀ h, t.reg h = s.reg h) ∧ t.xferIndex = s.xferIndex ∧ t.resyncAcc = s.resyncAcc ∧ t.cdL = s.cdL ∧ t.cdR = s.cdR ∧
    t.port = s.port ∧ t.resp = s.resp ∧
    t.capIndex.toNat = (s.capIndex.toNat + 1) % 512 ∧ t.keyOn = 0#24 ∧ t.keyOff = 0#24 ∧ t.rvPhase = !s.rvPhase ∧
    (s.rvPhase = false → t.rvCursor = s.rvCursor) ∧
    (s.rvPhase = true → t.rvCursor.toNat =
      if s.rvCursor.toNat = 0x3FFFF then 4 * (s.reg 0xD1).toNat else s.rvCursor.toNat + 1) ∧
    t.mvL = sweepCycle (s.reg 0xC0) s.mvL ∧ t.mvR = sweepCycle (s.reg 0xC1) s.mvR ∧
    ∃ l r, t.ring = (s.ring.push std l r).2

/-- What TICK and RESYNC can write in sound RAM (R90, R287, R298, R312, R317, R485). A TICK writes at most its four capture cells and, with
CONTROL bit 7 set, the working area from 4 * RVB_BASE up; a RESYNC at most cells 0..0x7FF and that area. Where the working area does not
overlap the capture ranges, a TICK leaves the CD input in its two capture cells. -/
def Obligations.TickWritesCaptureAndWorkingArea : Prop :=
  (∀ (s : State) (a : Nat), ∃ t, exec .tick s = .next t ∧
    (a ≠ s.capIndex.toNat → a ≠ 0x200 + s.capIndex.toNat → a ≠ 0x400 + s.capIndex.toNat → a ≠ 0x600 + s.capIndex.toNat →
      (s.reg 0xD5).getLsbD 7 = false ∨ a < 4 * (s.reg 0xD1).toNat → t.ram.read a = s.ram.read a)) ∧
  (∀ (s : State), s.ram.wf → (s.reg 0xD5).getLsbD 7 = false ∨ 0x800 ≤ 4 * (s.reg 0xD1).toNat → ∃ t, exec .tick s = .next t ∧
    t.ram.read s.capIndex.toNat = s.cdL ∧ t.ram.read (0x200 + s.capIndex.toNat) = s.cdR) ∧
  ∀ (n : BitVec 32) (s : State) (a : Nat), ∃ t, exec (.resync n) s = .next t ∧
    (0x800 ≤ a → (s.reg 0xD5).getLsbD 7 = false ∨ a < 4 * (s.reg 0xD1).toNat → t.ram.read a = s.ram.read a)

/-- Key-on across a whole tick (R197, R240, R292, R293, R294): a voice whose latch bit is set ends the tick restarted: envelope at level 0
in Attack, or in Release while the SPU is disabled; phase 0; the decoder at the start index aligned down to 8 with no header, history or
samples and no loop override; the start delay loaded; its ENDX bit clear. The volume units are changed by their sweep only. It does so
whether or not its key-off bit is set too. -/
def Obligations.KeyOnRestartsVoice : Prop :=
  ∀ (s : State) (v : VoiceId), s.keyOn.getLsbD v.val = true → ∃ t, exec .tick s = .next t ∧
    (t.voice v).adsr = { st := if (s.reg 0xD5).getLsbD 15 then .attack else .release, level := 0#16, divider := 0#16 } ∧
    (t.voice v).phase = 0#16 ∧ (t.voice v).curIndex.toNat = 4 * (s.reg (voiceCell v .start)).toNat / 8 * 8 ∧
    (t.voice v).hdr = 0#16 ∧ (t.voice v).hist0 = 0#16 ∧ (t.voice v).hist1 = 0#16 ∧ (t.voice v).fifo = [] ∧
    (t.voice v).loopForce = false ∧ (t.voice v).startDelay = 4 ∧ t.endx.getLsbD v.val = false ∧
    (t.voice v).volL = sweepCycle (s.reg (voiceCell v .volL)) (s.voice v).volL ∧
    (t.voice v).volR = sweepCycle (s.reg (voiceCell v .volR)) (s.voice v).volR

/-- Key-off and the SPU-disable mute across a whole tick (R241, R292, R294): a voice keyed off and not on ends the tick in Release with
divider 0; while CONTROL bit 15 is 0 every voice ends it in Release at level 0. Key-off itself does not reset the level: with CONTROL bit 15
set and nothing to decode (11 samples ahead, so no loop action; assumption 3), the level is the one that the envelope cycle gives, or the
old one while a start delay runs. -/
def Obligations.KeyOffAndDisableRelease : Prop :=
  (∀ (s : State) (v : VoiceId), s.keyOn.getLsbD v.val = false → s.keyOff.getLsbD v.val = true → ∃ t, exec .tick s = .next t ∧
    (t.voice v).adsr.st = .release ∧ (t.voice v).adsr.divider = 0#16 ∧
    ((s.reg 0xD5).getLsbD 15 = true → 11 ≤ (s.voice v).fifo.length → (t.voice v).adsr.level =
      if 0 < (s.voice v).startDelay then (s.voice v).adsr.level
      else (adsrTick (s.reg (voiceCell v .adsrHi) ++ s.reg (voiceCell v .adsrLo)) (s.voice v).adsr).level)) ∧
  ∀ (s : State), (s.reg 0xD5).getLsbD 15 = false → ∃ t, exec .tick s = .next t ∧
    ∀ v, (t.voice v).adsr = { st := .release, level := 0#16, divider := 0#16 }

/-- R192, R193, R195 and R199: a data cell is decoded into four samples, lowest code first, each the shifted code plus the two floored
history terms, saturated; they are appended to the FIFO and slide the history, and nothing else changes. A shift above 12 keeps the
codes' sign bits and shifts by 8, so that every code gives 0 or -128. The weights are those of R194's table, a default (assumption 3). -/
def Obligations.DecodeCellReconstructs : Prop :=
  (std.weights 0 = (0, 0) ∧ std.weights 1 = (60, 0) ∧ std.weights 2 = (115, -52) ∧ std.weights 3 = (98, -55) ∧
    std.weights 4 = (122, -60) ∧ ∀ i : BitVec 4, 5 ≤ i.toNat → std.weights i = (0, 0)) ∧
  (∀ (c : Config) (w : Cell) (V : Voice),
    let shift := (V.hdr.extractLsb' 0 4).toNat
    let w1 := if 12 < shift then w &&& 0x8888#16 else w
    let k := if 12 < shift then 8 else shift
    let code := fun (j : Nat) => ((w1.extractLsb' (4 * j) 4 ++ 0#12 : Cell).toInt) / 2 ^ k
    let wt := c.weights (V.hdr.extractLsb' 4 4)
    let next := fun (t : Int) (h0 h1 : Sample) => sat16 (t + h0.toInt * wt.1 / 64 + h1.toInt * wt.2 / 64)
    ∃ x0 x1 x2 x3 : Sample,
      x0.toInt = next (code 0) V.hist0 V.hist1 ∧ x1.toInt = next (code 1) x0 V.hist0 ∧
      x2.toInt = next (code 2) x1 x0 ∧ x3.toInt = next (code 3) x2 x1 ∧
      decodeCell c w V = { V with fifo := V.fifo ++ [x0, x1, x2, x3], hist0 := x3, hist1 := x2 }) ∧
  ∀ (w : Cell) (j : Nat), j < 4 →
    ((w &&& 0x8888#16).extractLsb' (4 * j) 4 ++ 0#12 : Cell).toInt / 2 ^ 8 = if w.getLsbD (4 * j + 3) then -128 else 0

/-- R196, R198, R200 and R201, a decoder step: with 11 or more samples decoded ahead only the two checks of the index before `cur_index`;
else, inside a block, the checks of `cur_index` and one data cell; at a block start the loop action on the finished header first, then
the checks, the header with its loop capture, and the first data cell. It writes no sound RAM. The machine decodes below 11 samples, the
default of FIFO_DECODE_BELOW (assumption 3). -/
def Obligations.DecoderStepFetches : Prop :=
  std.fifoDecodeBelow = 11 ∧
  let checks := fun (i : Index) (s : State) => (s.irqLatch || (s.irqEn && (i == s.irqIndex || (i &&& 0x3FFF8#18) == s.irqIndex)))
  ∀ (c : Config) (v : VoiceId) (s : State), c.fifoDecodeBelow = 11 →
    (11 ≤ (s.voice v).fifo.length →
      decoderStep c v s = { s with irqLatch := checks ((s.voice v).curIndex - 1) s }) ∧
    ((s.voice v).fifo.length < 11 → (s.voice v).curIndex.toNat % 8 ≠ 0 →
      decoderStep c v s =
        { s.modVoice v (fun V => decodeCell c (s.ramAt V.curIndex) { V with curIndex := V.curIndex + 1 }) with
          irqLatch := checks (s.voice v).curIndex s }) ∧
    ((s.voice v).fifo.length < 11 → (s.voice v).curIndex.toNat % 8 = 0 →
      let s1 := loopAction v s
      let i := (s1.voice v).curIndex
      let h := s.ramAt i
      decoderStep c v s =
        { s1.modVoice v (fun V => decodeCell c (s.ramAt (i + 1))
            { V with hdr := h, curIndex := i + 1 + 1, loopIndex := if h.getLsbD 10 && !V.loopForce then i else V.loopIndex }) with
          irqLatch := checks i s })

/-- The decode FIFO's window (R51, R205): from at most 14 samples, a decoder step leaves between 4 and 14; consumption then drops at most
four. -/
def Obligations.FifoWindow : Prop :=
  (∀ (v : VoiceId) (s : State), (s.voice v).fifo.length ≤ 14 →
    4 ≤ ((decoderStep std v s).voice v).fifo.length ∧ ((decoderStep std v s).voice v).fifo.length ≤ 14) ∧
  ∀ (v : VoiceId) (fm : Int) (s : State) (V : Voice), V.phase.toNat < 0x1000 →
    V.fifo.length ≤ (consume (voiceStep v fm s) V).fifo.length + 4

/-- R203 and R204, the loop action: on a header without the loop-end bit nothing; with it the index goes to the loop index aligned down to
8 and the ENDX bit is set; without the repeat bit the voice is released at level 0. -/
def Obligations.LoopActionFollowsHeader : Prop :=
  ∀ (v : VoiceId) (s : State),
    ((s.voice v).hdr.getLsbD 8 = false → loopAction v s = s) ∧
    ((s.voice v).hdr.getLsbD 8 = true →
      ((loopAction v s).voice v).curIndex.toNat = (s.voice v).loopIndex.toNat / 8 * 8 ∧
      (loopAction v s).voice v =
        { s.voice v with curIndex := ((loopAction v s).voice v).curIndex
                         adsr := if (s.voice v).hdr.getLsbD 9 then (s.voice v).adsr
                           else { st := .release, level := 0#16, divider := 0#16 } } ∧
      (loopAction v s).endx.getLsbD v.val = true ∧
      (∀ w : VoiceId, w ≠ v → (loopAction v s).voice w = s.voice w ∧
        (loopAction v s).endx.getLsbD w.val = s.endx.getLsbD w.val) ∧
      loopAction v s = { s with voices := (loopAction v s).voices, endx := (loopAction v s).endx })

/-- R232, one envelope cycle: the divider accumulates and saturates; below 0x8000 nothing else moves; at or above it the divider drops by
0x8000, the level takes its step and is clamped, and the state follows: Attack at 0x7FFF to Decay, Decay at or below the threshold to
Sustain. The parameters of a state come from the bits of the configuration word (R227, R228), the effective steps at a level from the
parameters (R231), the threshold from its low four bits (R230). -/
def Obligations.EnvelopeCycle : Prop :=
  (∀ (shift : Nat) (step : Int),
    (shift < 11 → steps shift step = (0x8000, step * 2 ^ (11 - shift))) ∧
    (11 ≤ shift → steps shift step = (max 1 (0x8000 / 2 ^ (shift - 11)), step))) ∧
  (∀ cfg : BitVec 32,
    let f := fun (hi lo : Nat) => cfg.toNat / 2 ^ lo % 2 ^ (hi + 1 - lo)
    let set := fun (shift : Nat) (step : Int) (mode : EnvMode) =>
      ({ d := (steps shift step).1, l := (steps shift step).2, mode := mode } : EnvParams)
    let smoothUp := fun (shift : Nat) (step : Int) => EnvMode.smoothUp (steps (shift + 2) step).1 (steps (shift + 2) step).2
    adsrParams cfg .attack =
      set (f 14 10) (7 - f 9 8) (if f 15 15 = 1 then smoothUp (f 14 10) (7 - f 9 8) else .linear) ∧
    adsrParams cfg .decay = set (f 7 4) (-8) .exponential ∧
    (f 30 30 = 0 → adsrParams cfg .sustain =
      set (f 28 24) (7 - f 23 22) (if f 31 31 = 1 then smoothUp (f 28 24) (7 - f 23 22) else .linear)) ∧
    (f 30 30 = 1 → adsrParams cfg .sustain =
      set (f 28 24) (-8 + f 23 22) (if f 31 31 = 1 then .exponential else .linear)) ∧
    adsrParams cfg .release = set (f 20 16) (-8) (if f 21 21 = 1 then .exponential else .linear)) ∧
  (∀ (d d2 : Nat) (l l2 level : Int),
    divStep ⟨d, l, .linear⟩ level = d ∧ lvlStep ⟨d, l, .linear⟩ level = l ∧
    divStep ⟨d, l, .exponential⟩ level = d ∧ lvlStep ⟨d, l, .exponential⟩ level = l * max level 0 / 2 ^ 15 ∧
    (level < 0x6000 → divStep ⟨d, l, .smoothUp d2 l2⟩ level = d ∧ lvlStep ⟨d, l, .smoothUp d2 l2⟩ level = l) ∧
    (0x6000 ≤ level → divStep ⟨d, l, .smoothUp d2 l2⟩ level = d2 ∧ lvlStep ⟨d, l, .smoothUp d2 l2⟩ level = l2)) ∧
  ∀ (cfg : BitVec 32) (A : Adsr),
    let p := adsrParams cfg A.st
    let d := min 0xFFFF (A.divider.toNat + divStep p A.level.toInt)
    let new := min 0x7FFF (max 0 (A.level.toInt + lvlStep p A.level.toInt))
    (d < 0x8000 → adsrTick cfg A = { A with divider := BitVec.ofNat 16 d }) ∧
    (0x8000 ≤ d →
      (adsrTick cfg A).divider.toNat = d - 0x8000 ∧ (adsrTick cfg A).level.toInt = new ∧
      (adsrTick cfg A).st =
        if A.st = .attack ∧ new = 0x7FFF then .decay
        else if A.st = .decay ∧ new ≤ min 0x7FFF (((cfg.extractLsb' 0 4).toNat + 1) * 0x800) then .sustain
        else A.st)

/-- The envelope's properties (R226, R244): in Attack a cycle never lowers the level, and leaves Attack only for Decay at 0x7FFF; in Decay a
cycle that moved the level and stays in Decay is above the threshold, and Decay is left only for Sustain; Sustain and Release are never
left. -/
def Obligations.EnvelopeIsMonotoneAndClamped : Prop :=
  ∀ (cfg : BitVec 32) (A : Adsr), A.level.toNat ≤ 0x7FFF →
    (A.st = .attack → A.level.toNat ≤ (adsrTick cfg A).level.toNat ∧
      ((adsrTick cfg A).st = .attack ∨ ((adsrTick cfg A).st = .decay ∧ (adsrTick cfg A).level = 0x7FFF#16))) ∧
    (A.st = .decay → (adsrTick cfg A).st = .sustain ∨
      ((adsrTick cfg A).st = .decay ∧
        ((adsrTick cfg A).level ≠ A.level → sustainLevel cfg < ((adsrTick cfg A).level.toNat : Int)))) ∧
    (A.st = .sustain → (adsrTick cfg A).st = .sustain) ∧ (A.st = .release → (adsrTick cfg A).st = .release) ∧
    (adsrTick cfg A).level.toNat ≤ 0x7FFF

/-- R255 and R258, a volume word and one sweep cycle: a fixed word sets the level to the word doubled and leaves the divider; a sweep, with
the parameters that its word's bits give, clamps the level to a magnitude in its phase, accumulates the divider, and on overflow takes one
step, clamped; the level has the phase's sign. `EnvelopeCycle` gives `steps`, `divStep` and `lvlStep`. -/
def Obligations.SweepCycle : Prop :=
  ∀ (word : Cell) (U : VolUnit),
    (word.getLsbD 15 = false →
      volConfig word = .fixed (word <<< 1).toInt ∧ sweepCycle word U = { U with level := word <<< 1 }) ∧
    (word.getLsbD 15 = true →
      let shift := word.toNat / 4 % 32
      let step : Int := if word.getLsbD 13 then -8 + (word.toNat % 4 : Nat) else 7 - (word.toNat % 4 : Nat)
      let mode : EnvMode :=
        if word.getLsbD 14 then
          (if word.getLsbD 13 then .exponential else .smoothUp (steps (shift + 2) step).1 (steps (shift + 2) step).2)
        else .linear
      let p : EnvParams := { d := (steps shift step).1, l := (steps shift step).2, mode := mode }
      volConfig word = .sweep p (word.getLsbD 12) ∧
      let sign : Int := if word.getLsbD 12 then -1 else 1
      let m := min 0x7FFF (max 0 (sign * U.level.toInt))
      let d := min 0xFFFF (U.divider.toNat + divStep p m)
      (d < 0x8000 → (sweepCycle word U).level.toInt = sign * m ∧ (sweepCycle word U).divider.toNat = d) ∧
      (0x8000 ≤ d → (sweepCycle word U).level.toInt = sign * min 0x7FFF (max 0 (m + lvlStep p m)) ∧
        (sweepCycle word U).divider.toNat = d - 0x8000))

/-- R271 and R272, one noise cycle, with the rate fields of CONTROL: the first counter overflows at bit 15 and is cleared, the second at bit 3
and keeps its low three bits, and then the register shifts left by one with the parity of its four taps, inverted by NOISE_INVERT, whose
default is 1 (R273, assumption 3). -/
def Obligations.NoiseCycle : Prop :=
  std.noiseInvert = true ∧
  ∀ (c : Config) (s : State),
    let shift := ((s.reg 0xD5).extractLsb' 10 4).toNat
    let n1 := (s.nCnt1.toNat + if shift = 15 then 0x8000 else 2 * 2 ^ shift) % 0x10000
    let n2 := (s.nCnt2.toNat + if shift = 15 then 8 else 4 + ((s.reg 0xD5).extractLsb' 8 2).toNat) % 0x100
    let t := noiseCycle c s
    t = { s with nCnt1 := t.nCnt1, nCnt2 := t.nCnt2, lfsr := t.lfsr } ∧
    (n1 < 0x8000 → t.nCnt1.toNat = n1 ∧ t.nCnt2 = s.nCnt2 ∧ t.lfsr = s.lfsr) ∧
    (0x8000 ≤ n1 → t.nCnt1 = 0#16 ∧ (n2 / 8 % 2 = 0 → t.nCnt2.toNat = n2 ∧ t.lfsr = s.lfsr) ∧
      (n2 / 8 % 2 = 1 → t.nCnt2.toNat = n2 % 8 ∧
        (∀ i, i < 15 → t.lfsr.getLsbD (i + 1) = s.lfsr.getLsbD i) ∧
        t.lfsr.getLsbD 0 = (s.lfsr.getLsbD 15 ^^ s.lfsr.getLsbD 12 ^^ s.lfsr.getLsbD 11 ^^ s.lfsr.getLsbD 10 ^^ c.noiseInvert)))

/-- R212, R214 and R216, the resampler, for any table FIR4 (a free value, assumption 1): the interpolation is the saturated, floored sum over
the four oldest samples with the row that the phase's top fraction bits select; the step is the pitch cell, modulated by the previous
voice's sample if the FM bit is set (never for voice 0), and at most 0x3FFF; consumption keeps the fraction and drops whole samples. -/
def Obligations.ResamplerArithmetic : Prop :=
  (∀ (c : Config) (V : Voice),
    let row := c.fir4 (V.phase.extractLsb' 4 8)
    let x := fun (k : Nat) => (V.fifo.getD k 0#16).toInt
    interpolate c V =
      sat16 (((row 0).toInt * x 0 + (row 1).toInt * x 1 + (row 2).toInt * x 2 + (row 3).toInt * x 3) / 2 ^ 15)) ∧
  (∀ (v : VoiceId) (fm : Int) (s : State), -32768 ≤ fm → fm ≤ 32767 →
    let on := decide (v ≠ 0) && (if v.val < 16 then (s.reg 0xC8).getLsbD v.val else (s.reg 0xC9).getLsbD (v.val - 16))
    let p : Int := (s.reg (voiceCell v .pitch)).toNat
    (voiceStep v fm s : Int) = min (if on then p * (fm + 0x8000) / 2 ^ 15 else p) 0x3FFF) ∧
  ∀ (step : Nat) (V : Voice), V.phase.toNat < 0x1000 → step ≤ 0x3FFF →
    (consume step V).phase.toNat = (V.phase.toNat + step) % 0x1000 ∧
    (consume step V).fifo = V.fifo.drop ((V.phase.toNat + step) / 0x1000) ∧
    consume step V = { V with phase := (consume step V).phase, fifo := (consume step V).fifo }

/-- R312, the working area: an access at any offset, negative ones and ones beyond the area included, lies at or above rv_base, and at the
cursor's position plus the offset modulo the area's size. -/
def Obligations.ReverbAddressWraps : Prop :=
  ∀ (s : State) (off : Int),
    let base := 4 * (s.reg 0xD1).toNat
    base ≤ (s.rvAddr off).toNat ∧ (s.rvAddr off).toNat < 0x40000 ∧
    (((s.rvAddr off).toNat : Int) - base) = ((s.rvCursor.toNat : Int) - base + off) % (0x40000 - base)

/-- R316, R317, R322 and R323, a reflection stage of either side: with the write gate on, the cell at the stage's position takes the smoothed
value and no other cell changes; with the gate off no cell changes, which is the default's rule (assumption 3). Both reads are watched, and
the write if it is made; nothing but sound RAM and the latch changes. The gain cells are vWALL (0xE7) and vIIR (0xE2), read signed; the
displacement cells of the different-side stage are the other side's. -/
def Obligations.ReflectionStage : Prop :=
  (Side.dSame .left = 0xF0 ∧ Side.mSame .left = 0xEA ∧ Side.dDiff .left = 0xF9 ∧ Side.mDiff .left = 0xF2 ∧
    Side.dSame .right = 0xF1 ∧ Side.mSame .right = 0xEB ∧ Side.dDiff .right = 0xF8 ∧ Side.mDiff .right = 0xF3) ∧
  std.rvbWriteAlways = false ∧
  ∀ (c : Config) (d m : CellId) (x : Int) (s : State),
    let read := fun (off : Int) => (s.ramAt (s.rvAddr off)).toInt
    let old := read (4 * (s.reg m).toNat - 1)
    let t := sat16 (x + mul15 (read (4 * (s.reg d).toNat)) (s.reg 0xE7).toInt)
    let position := 4 * ((s.reg m).toNat : Int)
    (s.ram.wf → StageStore c m (sat16 (old + mul15 (t - old) (s.reg 0xE2).toInt)) s (reflect c d m x s)) ∧
    WatchedAccesses ([s.rvAddr (4 * (s.reg d).toNat), s.rvAddr (position - 1)] ++ gatedCell c position s) s (reflect c d m x s)

/-- R321 and R324 to R326, the rest of one side's network: the input weighting, the order of the stages, the four-tap comb, which writes no
cell, and the all-pass stage, whose delayed cell is read once, before its write. The comb's four reads and an all-pass stage's read are
watched (R316), and its write if it is made (R317); nothing but sound RAM and the latch changes. -/
def Obligations.CombAndAllPassStages : Prop :=
  (∀ (c : Config) (side : Side) (x : Int) (s : State),
    let input := mul15 x (s.reg (match side with | .left => 0xFE | .right => 0xFF)).toInt
    let s1 := reflect c side.dSame side.mSame input s
    let s2 := reflect c side.dDiff side.mDiff input s1
    let q := comb side s2
    let r := allPass c (match side with | .left => 0xFA | .right => 0xFB) 0xE0 0xE8 q.1 q.2
    reverbSide c side x s = allPass c (match side with | .left => 0xFC | .right => 0xFD) 0xE1 0xE9 r.1 r.2) ∧
  (∀ (side : Side) (s : State),
    let cell := fun (l r : CellId) => s.rvAddr (4 * (s.reg (match side with | .left => l | .right => r)).toNat)
    let read := fun (l r : CellId) => (s.ramAt (cell l r)).toInt
    (comb side s).1 =
      sat16 (mul15 (read 0xEC 0xED) (s.reg 0xE3).toInt + mul15 (read 0xEE 0xEF) (s.reg 0xE4).toInt +
        mul15 (read 0xF4 0xF5) (s.reg 0xE5).toInt + mul15 (read 0xF6 0xF7) (s.reg 0xE6).toInt) ∧
    (comb side s).2.ram = s.ram ∧
    WatchedAccesses [cell 0xEC 0xED, cell 0xEE 0xEF, cell 0xF4 0xF5, cell 0xF6 0xF7] s (comb side s).2) ∧
  ∀ (c : Config) (m d g : CellId) (x : Int) (s : State),
    let position := 4 * ((s.reg m).toNat : Int)
    let delay := s.rvAddr (position - 4 * (s.reg d).toNat)
    let delayed := (s.ramAt delay).toInt
    let a := sat16 (x - mul15 delayed (s.reg g).toInt)
    (allPass c m d g x s).1 = sat16 (mul15 a (s.reg g).toInt + delayed) ∧
    (s.ram.wf → StageStore c m a s (allPass c m d g x s).2) ∧
    WatchedAccesses ([delay] ++ gatedCell c position s) s (allPass c m d g x s).2

/-- R314 and R320, the reverb cycle over the side's network: both downsampler lines shift, the processed side's line is filtered and goes
through the network, its output and a zero shift into the upsampler lines, both lines are filtered and scaled, then the cursor and the phase
move. FIR39 has the default of R314, a parameter (assumption 3). -/
def Obligations.ReverbCycleRunsItsStages : Prop :=
  std.fir39 = [-1, 0, 2, 0, -10, 0, 35, 0, -103, 0, 266, 0, -616, 0, 1332, 0, -2960, 0, 10246, 16384,
    10246, 0, -2960, 0, 1332, 0, -616, 0, 266, 0, -103, 0, 35, 0, -10, 0, 2, 0, -1] ∧
  (∀ (line : Vector Sample 39) (x : Sample),
    (∀ k : Fin 38, (shiftIn line x).get k.castSucc = line.get k.succ) ∧ (shiftIn line x).get (Fin.last 38) = x ∧
    firSum std line = ∑ k : Fin 39, std.fir39.getD k.val 0 * (line.get k).toInt) ∧
  ∀ (c : Config) (inL inR : Int) (s : State),
    let s1 := { s with dsL := shiftIn s.dsL (u16 inL), dsR := shiftIn s.dsR (u16 inR) }
    let q := reverbSide c (if s.rvPhase then .right else .left)
      (sat16 (firSum c (if s.rvPhase then s1.dsR else s1.dsL) / 2 ^ 15)) s1
    let s2 := { q.2 with usL := shiftIn s.usL (if s.rvPhase then 0#16 else u16 q.1)
                         usR := shiftIn s.usR (if s.rvPhase then u16 q.1 else 0#16) }
    reverbCycle c inL inR s =
      ((mul15 (sat16 (firSum c s2.usL / 2 ^ 14)) (s.reg 0xC2).toInt, mul15 (sat16 (firSum c s2.usR / 2 ^ 14)) (s.reg 0xC3).toInt),
        { s2 with
          rvPhase := !s.rvPhase
          rvCursor := if s.rvPhase then (if s.rvCursor = 0x3FFFF#18 then s.reg 0xD1 ++ 0#2 else s.rvCursor + 1) else s.rvCursor })

/-- R299 and R303: the CD blend adds the scaled CD pair to the mix if CONTROL bit 0 is set, and to the reverb input if bit 2 is set as well;
the output stage saturates, scales and saturates again, and its second saturation acts in one case only. -/
def Obligations.CdBlendAndOutputStage : Prop :=
  (∀ (s : State) (m : Mix),
    let cl := mul15 s.cdL.toInt (s.reg 0xD8).toInt
    let cr := mul15 s.cdR.toInt (s.reg 0xD9).toInt
    ((s.reg 0xD5).getLsbD 0 = false → cdBlend s m = m) ∧
    ((s.reg 0xD5).getLsbD 0 = true → (s.reg 0xD5).getLsbD 2 = false →
      cdBlend s m = { m with lmix := m.lmix + cl, rmix := m.rmix + cr }) ∧
    ((s.reg 0xD5).getLsbD 0 = true → (s.reg 0xD5).getLsbD 2 = true →
      cdBlend s m = { m with lmix := m.lmix + cl, rmix := m.rmix + cr, lrev := m.lrev + cl, rrev := m.rrev + cr })) ∧
  ∀ (mix : Int) (U : VolUnit),
    mainScale mix U = sat16 (mul15 (sat16 mix) U.level.toInt) ∧
    (¬ (sat16 mix = -32768 ∧ U.level = 0x8000#16) → mainScale mix U = mul15 (sat16 mix) U.level.toInt) ∧
    (sat16 mix = -32768 → U.level = 0x8000#16 → mainScale mix U = 32767)

/-- R444, the comparator: with the watchdog armed and the index equal to the trigger the latch is set; otherwise nothing happens; the latch
is never cleared. And R446: the line is the latch. -/
def Obligations.WatchdogComparator : Prop :=
  ∀ (i : Index) (s : State),
    ((s.reg 0xD5).getLsbD 6 = true → i.toNat = 4 * (s.reg 0xD2).toNat → irqCheck i s = { s with irqLatch := true }) ∧
    ((s.reg 0xD5).getLsbD 6 = false ∨ i.toNat ≠ 4 * (s.reg 0xD2).toNat → irqCheck i s = s) ∧
    s.irqOut = s.irqLatch

/-- R447: the latch falls only by RESET or by a write that reaches CONTROL with bit 6 clear: WR16 (its row or the generic command), WR8 at
CONTROL's even offset, or WR32 at the word that holds CONTROL in its high half. No read and no tick clears it. -/
def Obligations.LatchFallsOnlyByAcknowledge : Prop :=
  ∀ (i : Instr) (s t : State), exec i s = .next t → s.irqLatch = true → t.irqLatch = false →
    i = .reset ∨ (∃ x : Cell, i = .wr16Control x ∧ x.getLsbD 6 = false) ∨
    (∃ (boff : ByteOff) (x : Cell), i = .wr16 boff x ∧ halfOff boff = 0xD5#11 ∧ x.getLsbD 6 = false) ∨
    (∃ (boff : ByteOff) (b : BitVec 8), i = .wr8 boff b ∧ boff = 0x1AA#12 ∧ b.getLsbD 6 = false) ∨
    ∃ (boff : ByteOff) (w : BitVec 32), i = .wr32 boff w ∧ boff &&& 0xFFC#12 = 0x1A8#12 ∧ w.getLsbD 22 = false

/-- R444: while the watchdog is off no access can set the latch: a command that ends with it off leaves the latch set only if it was set. -/
def Obligations.DisabledWatchdogNeverLatches : Prop :=
  ∀ (i : Instr) (s t : State), exec i s = .next t → s.irqEn = false → t.irqEn = false → t.irqLatch = true → s.irqLatch = true

/-- R367: a voice's ENDX bit rises only in a TICK or RESYNC, and falls only by RESET or in a TICK or RESYNC that began with the voice's
key-on latched. -/
def Obligations.EndxChangesOnlyByLoopKeyOnReset : Prop :=
  ∀ (i : Instr) (s t : State) (v : VoiceId), exec i s = .next t →
    (s.endx.getLsbD v.val = false → t.endx.getLsbD v.val = true → i = .tick ∨ ∃ n, i = .resync n) ∧
    (s.endx.getLsbD v.val = true → t.endx.getLsbD v.val = false →
      i = .reset ∨ (s.keyOn.getLsbD v.val = true ∧ (i = .tick ∨ ∃ n, i = .resync n)))

/-- R455, RESYNC: the cycles and the carried remainder are divided by CLOCK_DIV; the remainder is kept, the quotient is the number of TICKs
run and is answered. -/
def Obligations.ResyncRunsOwedTicks : Prop :=
  std.clockDiv = 768 ∧ (∀ u : State, exec .tick u = .next (tick std u)) ∧
  ∀ (n : BitVec 32) (s : State), ∃ t, exec (.resync n) s = .next t ∧
    t = { (tick std)^[(s.resyncAcc + n.toNat) / 768] { s with resyncAcc := (s.resyncAcc + n.toNat) % 768 } with
          resp := .ticks ((s.resyncAcc + n.toNat) / 768) } ∧
    t.resyncAcc = (s.resyncAcc + n.toNat) % 768 ∧ (∀ h, t.reg h = s.reg h) ∧ t.xferIndex = s.xferIndex ∧
    t.cdL = s.cdL ∧ t.cdR = s.cdR ∧ t.port = s.port

/-- No synthesis state depends on the ring or on the latch (R305, R449): whatever the ring holds, a tick pushes the same pair and leaves
everything else the same; whether the latch is 0 or 1, a tick's outcome is the same but for the latch, which is the old latch or a match
that does not depend on it. -/
def Obligations.SynthesisIgnoresRingAndLatch : Prop :=
  (∀ (c : Config) (s : State), ∃ l r : Sample, ∀ g : Ring, tick c { s with ring := g } = { tick c s with ring := (g.push c l r).2 }) ∧
  ∀ (c : Config) (s : State), ∃ hit : Bool, ∀ b : Bool, tick c { s with irqLatch := b } = { tick c s with irqLatch := b || hit }

/-- R51 (with the start delay's range, R50) holds of every voice after every step that began with it: the level in 0..0x7FFF, the phase
below 0x1000, at most 14 samples in the FIFO. -/
def Obligations.VoiceInvariantKept : Prop := ∀ s t : State, VoicesOk s → step s = .next t → VoicesOk t

/-- Every step keeps sound RAM in canonical form and within its 0x40000 cells (R40, R80), and the reverb cursor in the working area
(R313). -/
def Obligations.SoundRamAndReverbCursorKept : Prop :=
  (∀ s t : State, RamOk s → step s = .next t → RamOk t) ∧ ∀ s t : State, ReverbOk s → step s = .next t → ReverbOk t

/-- Every step keeps the RESYNC remainder below CLOCK_DIV (R42), the noise counters below their overflow bits and the noise register off its
fixed point (R272, R273), and the read-only cells without a stored value (R367, R375). -/
def Obligations.CountersAndReadOnlyCellsKept : Prop :=
  (∀ s t : State, ResyncOk s → step s = .next t → ResyncOk t) ∧
  (∀ s t : State, NoiseOk s → step s = .next t → NoiseOk t) ∧
  ∀ s t : State, ReadOnlyCellsOk s → step s = .next t → ReadOnlyCellsOk t

/-- The reset state has every invariant that the steps keep, that of sound RAM for every RAM_INIT (R40). -/
def Obligations.ResetHasEveryInvariant : Prop :=
  VoicesOk State.reset ∧ RamOk State.reset ∧ ReverbOk State.reset ∧ RingOk State.reset.ring ∧ NoiseOk State.reset ∧
  ReadOnlyCellsOk State.reset ∧ ResyncOk State.reset ∧ ∀ c : Config, RamOk (State.resetWith c)
end

