-- ==== Sys2Proof/Laws/Encode.lean ====
section
/-!
SUPPORT. The laws of the command word: the fields of a packed word are read back (R120), the register decode and the offsets of the
registers are inverse (R130), and the rows of a register decode to themselves.
-/

namespace Sys2Proof

@[simp] theorem pack_op (op : BitVec 4) (boff : ByteOff) (data : BitVec 32) : (pack op boff data).extractLsb' 44 4 = op := by
  unfold pack
  ext i hi
  simp only [BitVec.getElem_extractLsb', BitVec.getLsbD_append]
  rw [if_neg (by omega), if_neg (by omega), show 44 + i - 32 - 12 = i by omega]
  simp [BitVec.getLsbD_eq_getElem hi]

@[simp] theorem pack_boff (op : BitVec 4) (boff : ByteOff) (data : BitVec 32) : (pack op boff data).extractLsb' 32 12 = boff := by
  unfold pack
  ext i hi
  simp only [BitVec.getElem_extractLsb', BitVec.getLsbD_append]
  rw [if_neg (by omega), if_pos (by omega)]
  simp [BitVec.getLsbD_eq_getElem hi]

@[simp] theorem pack_data (op : BitVec 4) (boff : ByteOff) (data : BitVec 32) : (pack op boff data).extractLsb' 0 32 = data := by
  unfold pack
  ext i hi
  simp only [BitVec.getElem_extractLsb', BitVec.getLsbD_append]
  rw [if_pos (by omega)]
  simp [BitVec.getLsbD_eq_getElem hi]

/-- A command word is the packing of its fields. -/
theorem pack_fields (w : CmdWord) : pack (w.extractLsb' 44 4) (w.extractLsb' 32 12) (w.extractLsb' 0 32) = w := by
  unfold pack
  ext i hi
  rw [← BitVec.getLsbD_eq_getElem, ← BitVec.getLsbD_eq_getElem]
  simp only [BitVec.getLsbD_append, BitVec.getLsbD_extractLsb']
  split
  · simp; omega
  · rename_i h1
    split
    · rename_i h2
      have : 32 + (i - 32) = i := by omega
      simp [h2, this]
    · rename_i h2
      have : 44 + (i - 32 - 12) = i := by omega
      have h3 : i - 32 - 12 < 4 := by omega
      simp [h3, this]

@[simp] theorem decode_pack (op : BitVec 4) (boff : ByteOff) (data : BitVec 32) :
    decode (pack op boff data) = decodeFields op boff data := by
  unfold decode
  rw [pack_op, pack_boff, pack_data]

@[simp] theorem halfOff_byteOff (h : HalfOff) : halfOff (byteOff h) = h := by
  unfold halfOff byteOff
  ext i hi
  simp only [BitVec.getElem_extractLsb', BitVec.getLsbD_append]
  rw [if_neg (by omega)]
  simp [BitVec.getLsbD_eq_getElem hi]

@[simp] theorem policyOfCode_policyCode (p : RingPolicy) : policyOfCode (policyCode p) = p := by cases p <;> rfl

/-- The low half of a value under zeros is the value. -/
@[simp] theorem extract_low {m n : Nat} (x : BitVec m) (y : BitVec n) : (x ++ y).extractLsb' 0 n = y := by
  ext i hi
  simp only [BitVec.getElem_extractLsb', BitVec.getLsbD_append]
  rw [if_pos (by omega)]
  simp [BitVec.getLsbD_eq_getElem hi]

/-- The high half of a concatenation. -/
theorem extract_high {m n : Nat} (x : BitVec m) (y : BitVec n) : (x ++ y).extractLsb' n m = x := by
  ext i hi
  simp only [BitVec.getElem_extractLsb', BitVec.getLsbD_append]
  rw [if_neg (by omega)]
  simp [BitVec.getLsbD_eq_getElem hi]

/-- The data word of RINGCFG gives its size back (R129). -/
theorem ringData_size (p : BitVec 2) (b : Bool) (size : BitVec 20) :
    (0#9 ++ BitVec.ofBool b ++ p ++ size).extractLsb' 0 20 = size := extract_low _ _

/-- The data word of RINGCFG gives its policy code back (R129). -/
theorem ringData_policy (p : BitVec 2) (b : Bool) (size : BitVec 20) :
    (0#9 ++ BitVec.ofBool b ++ p ++ size).extractLsb' 20 2 = p := by
  ext i hi
  simp only [BitVec.getElem_extractLsb', BitVec.getLsbD_append]
  rw [if_neg (by omega), if_pos (by omega)]
  simp [BitVec.getLsbD_eq_getElem hi]

/-- The data word of RINGCFG gives its overlay bit back (R129). -/
theorem ringData_overlay (p : BitVec 2) (b : Bool) (size : BitVec 20) :
    (0#9 ++ BitVec.ofBool b ++ p ++ size).getLsbD 22 = b := by
  simp only [BitVec.getLsbD_append]
  rw [if_neg (by omega), if_neg (by omega), if_pos (by omega)]
  cases b <;> rfl

theorem VReg.place_lt (r : VReg) : r.place < 8 := by cases r <;> decide

@[simp] theorem VReg.ofPlace_place (r : VReg) : VReg.ofPlace r.place = r := by cases r <;> rfl

theorem VReg.place_ofPlace {n : Nat} (h : n < 8) : (VReg.ofPlace n).place = n := by
  interval_cases n <;> rfl

theorem GReg.cell_bounds (g : GReg) : 0xC0 ≤ g.cell.val ∧ g.cell.val ≤ 0xFF := by cases g <;> decide

@[simp] theorem GReg.ofPlace_cell (g : GReg) : GReg.ofPlace (g.cell.val - 0xC0) = g := by cases g <;> decide

theorem GReg.cell_ofPlace {n : Nat} (h : n < 64) : (GReg.ofPlace n).cell.val = 0xC0 + n := by
  interval_cases n <;> rfl

theorem GReg.cell_injective {g k : GReg} (h : g.cell = k.cell) : g = k := by
  rw [← GReg.ofPlace_cell g, ← GReg.ofPlace_cell k, h]

@[simp] theorem voiceCell_val (v : VoiceId) (r : VReg) : (voiceCell v r).val = 8 * v.val + r.place := rfl

theorem voiceCell_lt (v : VoiceId) (r : VReg) : (voiceCell v r).val < 0xC0 := by
  have := v.isLt
  have := r.place_lt
  rw [voiceCell_val]
  omega

theorem voiceCell_injective {v w : VoiceId} {r q : VReg} (h : voiceCell v r = voiceCell w q) : v = w ∧ r = q := by
  have e := congrArg Fin.val h
  simp only [voiceCell_val] at e
  have h1 := r.place_lt
  have h2 := q.place_lt
  have hp : r.place = q.place := by omega
  refine ⟨Fin.ext (by omega), ?_⟩
  rw [← VReg.ofPlace_place r, ← VReg.ofPlace_place q, hp]

theorem voiceCell_ne_cell (v : VoiceId) (r : VReg) (g : GReg) : voiceCell v r ≠ g.cell := by
  intro h
  have e := congrArg Fin.val h
  have h1 := voiceCell_lt v r
  have h2 := g.cell_bounds
  omega

/-- The decode of a voice offset (R130). -/
theorem LogReg.decode_voice {h : HalfOff} (hv : h.toNat < 0xC0) :
    LogReg.decode h = .voice ⟨h.toNat / 8, by omega⟩ (VReg.ofPlace (h.toNat % 8)) := by
  unfold LogReg.decode
  rw [dif_pos hv]

/-- The decode of a global offset (R130). -/
theorem LogReg.decode_glob {h : HalfOff} (h1 : 0xC0 ≤ h.toNat) (h2 : h.toNat ≤ 0xFF) :
    LogReg.decode h = .glob (GReg.ofPlace (h.toNat - 0xC0)) := by
  unfold LogReg.decode
  rw [dif_neg (by omega), if_pos h2]

/-- The decode of a current-level offset (R130). -/
theorem LogReg.decode_curVol {h : HalfOff} (h1 : 0xFF < h.toNat) (h2 : h.toNat < 0x130) :
    LogReg.decode h = .curVol ⟨(h.toNat - 0x100) / 2, by omega⟩ (if h.toNat % 2 = 1 then .right else .left) := by
  unfold LogReg.decode
  rw [dif_neg (by omega), if_neg (by omega), dif_pos h2]

/-- The decode of an unmapped offset (R130). -/
theorem LogReg.decode_unmapped {h : HalfOff} (h1 : 0x130 ≤ h.toNat) : LogReg.decode h = .unmapped h := by
  unfold LogReg.decode
  rw [dif_neg (by omega), if_neg (by omega), dif_neg (by omega)]

/-- A register's offset decodes to the register. -/
theorem LogReg.decode_offset (r : LogReg) (hu : ∀ h, r = .unmapped h → 0x130 ≤ h.toNat) : LogReg.decode r.offset = r := by
  cases r with
  | voice v r =>
    have hlt := voiceCell_lt v r
    have e : (LogReg.offset (.voice v r)).toNat = 8 * v.val + r.place := by
      simp only [LogReg.offset, BitVec.toNat_ofNat, voiceCell_val]
      rw [voiceCell_val] at hlt
      omega
    have hp := r.place_lt
    rw [voiceCell_val] at hlt
    rw [LogReg.decode_voice (by omega)]
    simp only [e]
    have e1 : (8 * v.val + r.place) / 8 = v.val := by omega
    have e2 : (8 * v.val + r.place) % 8 = r.place := by omega
    simp only [e1, e2, VReg.ofPlace_place]
  | glob g =>
    have hb := g.cell_bounds
    have e : (LogReg.offset (.glob g)).toNat = g.cell.val := by
      simp only [LogReg.offset, BitVec.toNat_ofNat]
      omega
    rw [LogReg.decode_glob (by omega) (by omega)]
    simp only [e, GReg.ofPlace_cell]
  | curVol v side =>
    have hv := v.isLt
    cases side with
    | left =>
      have e : (LogReg.offset (.curVol v .left)).toNat = 0x100 + 2 * v.val := by
        simp only [LogReg.offset, BitVec.toNat_ofNat]
        omega
      rw [LogReg.decode_curVol (by omega) (by omega)]
      simp only [e]
      have e1 : (0x100 + 2 * v.val - 0x100) / 2 = v.val := by omega
      rw [if_neg (by omega)]
      simp only [e1]
    | right =>
      have e : (LogReg.offset (.curVol v .right)).toNat = 0x101 + 2 * v.val := by
        simp only [LogReg.offset, BitVec.toNat_ofNat]
        omega
      rw [LogReg.decode_curVol (by omega) (by omega)]
      simp only [e]
      have e1 : (0x101 + 2 * v.val - 0x100) / 2 = v.val := by omega
      rw [if_pos (by omega)]
      simp only [e1]
  | unmapped h => exact LogReg.decode_unmapped (hu h rfl)

/-- The offset of the register that an offset decodes to is that offset. -/
theorem LogReg.offset_decode (h : HalfOff) : (LogReg.decode h).offset = h := by
  have hb : h.toNat < 2 ^ 11 := h.isLt
  apply BitVec.eq_of_toNat_eq
  by_cases h1 : h.toNat < 0xC0
  · rw [LogReg.decode_voice h1]
    simp only [LogReg.offset, BitVec.toNat_ofNat, voiceCell_val]
    rw [VReg.place_ofPlace (by omega)]
    omega
  · by_cases h2 : h.toNat ≤ 0xFF
    · rw [LogReg.decode_glob (by omega) h2]
      simp only [LogReg.offset, BitVec.toNat_ofNat]
      rw [GReg.cell_ofPlace (by omega)]
      omega
    · by_cases h3 : h.toNat < 0x130
      · rw [LogReg.decode_curVol (by omega) h3]
        split
        · simp only [LogReg.offset, BitVec.toNat_ofNat]
          omega
        · simp only [LogReg.offset, BitVec.toNat_ofNat]
          omega
      · rw [LogReg.decode_unmapped (by omega)]
        rfl

/-- An RD16 word decodes to the row of its register. -/
theorem decode_encodeRead (r : LogReg) (hu : ∀ h, r = .unmapped h → 0x130 ≤ h.toNat) : decode (encodeRead r) = readRow r := by
  unfold encodeRead
  rw [decode_pack]
  show readRow (LogReg.decode (halfOff (byteOff r.offset))) = _
  rw [halfOff_byteOff, LogReg.decode_offset r hu]

/-- A WR16 word decodes to the row of its register. -/
theorem decode_encodeWrite (r : LogReg) (val : Cell) (hu : ∀ h, r = .unmapped h → 0x130 ≤ h.toNat) :
    decode (encodeWrite r val) = writeRow r val := by
  unfold encodeWrite
  rw [decode_pack]
  show writeRow (LogReg.decode (halfOff (byteOff r.offset))) ((0#16 ++ val).extractLsb' 0 16) = _
  rw [halfOff_byteOff, LogReg.decode_offset r hu, extract_low]

theorem wellFormed_unmapped {h : HalfOff} (hw : HalfOff.isUnmapped h = true) : 0x130 ≤ h.toNat := of_decide_eq_true hw

end Sys2Proof
end

