-- ==== Sys2Proof/Laws/Arith.lean ====
section
/-!
SUPPORT. The laws of the arithmetic primitives (40_arith.md): bounds of the saturations, the shift as a floor, signed readings and narrowing.
-/

namespace Sys2Proof.Machine

theorem sat16_bounds (x : Int) : -32768 ≤ sat16 x ∧ sat16 x ≤ 32767 := by unfold sat16; omega

theorem sat16_of_mem {x : Int} (h : -32768 ≤ x ∧ x ≤ 32767) : sat16 x = x := by unfold sat16; omega

theorem clamp_bounds {lo hi : Int} (h : lo ≤ hi) (x : Int) : lo ≤ clamp x lo hi ∧ clamp x lo hi ≤ hi := by unfold clamp; omega

theorem clamp_of_mem {x lo hi : Int} (h : lo ≤ x ∧ x ≤ hi) : clamp x lo hi = x := by unfold clamp; omega

/-- `asr` is the floor of the exact quotient (R174). -/
theorem asr_floor (x : Int) (n : Nat) : asr x n * 2 ^ n ≤ x ∧ x < (asr x n + 1) * 2 ^ n := by
  have h : (0 : Int) < 2 ^ n := by positivity
  unfold asr
  constructor
  · exact Int.ediv_mul_le x (by omega)
  · exact Int.lt_ediv_add_one_mul_self x h

theorem s16_bounds (w : Cell) : -32768 ≤ s16 w ∧ s16 w ≤ 32767 := by
  have h1 := BitVec.le_toInt w
  have h2 := BitVec.toInt_lt (x := w)
  unfold s16
  omega

/-- Narrowing a value that fits loses nothing (R176). -/
theorem s16_u16 {x : Int} (h : -32768 ≤ x ∧ x ≤ 32767) : s16 (u16 x) = x := by
  unfold s16 u16
  rw [BitVec.toInt_ofInt]
  unfold Int.bmod
  norm_num
  omega

theorem u16_s16 (w : Cell) : u16 (s16 w) = w := BitVec.ofInt_toInt

/-- A non-negative value that fits is the cell's unsigned reading too. -/
theorem u16_toNat {x : Int} (h : 0 ≤ x ∧ x ≤ 32767) : ((u16 x).toNat : Int) = x := by
  unfold u16
  rw [BitVec.toNat_ofInt]
  norm_num
  omega

/-- The zero test in `tap` changes no value. -/
@[simp] theorem tap_eq (k x : Int) : tap k x = k * x := by
  unfold tap
  split
  · rename_i h; simp [h]
  · rfl

/-- A product with a gain stays within 16 bits plus the one value 32768 (R177). -/
theorem mul15_bounds {a b : Int} (ha : -32768 ≤ a ∧ a ≤ 32767) (hb : -32768 ≤ b ∧ b ≤ 32767) :
    -32768 ≤ mul15 a b ∧ mul15 a b ≤ 32768 := by
  unfold mul15 asr
  norm_num
  constructor
  · rw [Int.le_ediv_iff_mul_le (by norm_num)]; nlinarith
  · have h : a * b ≤ 32768 * 32768 := by nlinarith
    omega

/-- Scaling by an envelope level keeps 16 bits (R243). -/
theorem mul15_level_bounds {a b : Int} (ha : -32768 ≤ a ∧ a ≤ 32767) (hb : 0 ≤ b ∧ b ≤ 32767) :
    -32768 ≤ mul15 a b ∧ mul15 a b ≤ 32767 := by
  unfold mul15 asr
  norm_num
  constructor
  · rw [Int.le_ediv_iff_mul_le (by norm_num)]; nlinarith
  · have h : a * b ≤ 32767 * 32767 := by nlinarith
    omega

@[simp] theorem sat16_sat16 (x : Int) : sat16 (sat16 x) = sat16 x := sat16_of_mem (sat16_bounds x)

/-- A saturated value is the signed reading of its own cell (R172, R176). -/
theorem s16_u16_sat16 (x : Int) : s16 (u16 (sat16 x)) = sat16 x := s16_u16 (sat16_bounds x)

/-- An address cell counts in units of 8 bytes, four sound-RAM cells (R45, R165). -/
theorem indexOf_toNat (w : Cell) : (indexOf w).toNat = 4 * w.toNat := by
  unfold indexOf
  rw [BitVec.toNat_append, Nat.shiftLeft_eq]
  simp
  omega

/-- The comparison of an index with an address cell, over numbers. -/
theorem index_beq (i : Index) (w : Cell) : (i == indexOf w) = decide (i.toNat = 4 * w.toNat) := by
  rw [← indexOf_toNat, Bool.eq_iff_iff]
  simp [BitVec.toNat_inj]

theorem alignMask_bit : ∀ k : Fin 18, (0x3FFF8#18)[k] = decide (3 ≤ k.val) := by decide

/-- Aligning down to a multiple of 8 (R82). -/
theorem alignDown8_toNat (i : Index) : (alignDown8 i).toNat = i.toNat / 8 * 8 := by
  have e : i &&& 0x3FFF8#18 = (i >>> 3) <<< 3 := by
    ext k hk
    have h := alignMask_bit ⟨k, hk⟩
    simp only [Fin.getElem_fin] at h
    rw [BitVec.getElem_and, h, BitVec.getElem_shiftLeft]
    by_cases h3 : 3 ≤ k
    · simp [h3, Nat.not_lt.mpr h3]
      rw [BitVec.getLsbD_eq_getElem]
    · simp [h3, Nat.lt_of_not_le h3]
  have := i.isLt
  unfold alignDown8
  rw [e, BitVec.toNat_shiftLeft, BitVec.toNat_ushiftRight, Nat.shiftRight_eq_div_pow, Nat.shiftLeft_eq]
  omega

end Sys2Proof.Machine
end

