-- ==== Sys2Proof/Laws/Adsr.lean ====
section
/-!
SUPPORT. What one envelope cycle and one sweep cycle can do (R232, R258).
-/

namespace Sys2Proof.Machine

theorem divStep_le {p : EnvParams} {n : Nat} (hd : p.d ≤ n) (h2 : ∀ d2 l2, p.mode = .smoothUp d2 l2 → d2 ≤ n) (level : Int) :
    divStep p level ≤ n := by
  unfold divStep
  split
  · rename_i d2 l2 hm
    split
    · exact h2 _ _ hm
    · exact hd
  · exact hd

/-- A level read signed that is at most 0x7FFF unsigned is that same number. -/
theorem s16_of_le {w : Cell} (h : w.toNat ≤ 0x7FFF) : s16 w = (w.toNat : Int) := by
  unfold s16
  rw [BitVec.toInt_eq_toNat_cond, if_pos (by omega)]

/-- One envelope cycle: either only the divider moves, or the level is the clamped sum and the state follows R226. -/
theorem adsrTick_cases (cfg : BitVec 32) (A : Adsr) :
    (∃ d : Nat, d < 0x8000 ∧ adsrTick cfg A = { A with divider := BitVec.ofNat 16 d }) ∨
    (∃ (d : Nat) (new : Int), d ≤ 0x7FFF ∧ 0 ≤ new ∧ new ≤ 0x7FFF ∧
      new = clamp (s16 A.level + lvlStep (adsrParams cfg A.st) (s16 A.level)) 0 0x7FFF ∧
      adsrTick cfg A = { st := adsrNextState cfg A.st new, level := u16 new, divider := BitVec.ofNat 16 d }) := by
  unfold adsrTick
  simp only
  split
  · exact .inl ⟨_, ‹_›, rfl⟩
  · refine .inr ⟨_, _, ?_, (clamp_bounds (by norm_num) _).1, (clamp_bounds (by norm_num) _).2, rfl, rfl⟩
    omega

/-- The level stays in 0..0x7FFF (R51, R244). -/
theorem adsrTick_level_le {A : Adsr} (h : A.level.toNat ≤ 0x7FFF) (cfg : BitVec 32) : (adsrTick cfg A).level.toNat ≤ 0x7FFF := by
  rcases adsrTick_cases cfg A with ⟨d, -, e⟩ | ⟨d, new, -, h0, h1, -, e⟩
  · rw [e]; exact h
  · rw [e]
    have := u16_toNat ⟨h0, h1⟩
    simp only
    omega

@[simp] theorem adsrMute_level (A : Adsr) : (adsrMute A).level = 0#16 := rfl
@[simp] theorem adsrMute_st (A : Adsr) : (adsrMute A).st = .release := rfl
@[simp] theorem adsrRelease_level (A : Adsr) : (adsrRelease A).level = A.level := rfl
@[simp] theorem adsrRelease_st (A : Adsr) : (adsrRelease A).st = .release := rfl
@[simp] theorem adsrAttack_level (A : Adsr) : (adsrAttack A).level = 0#16 := rfl
@[simp] theorem adsrAttack_st (A : Adsr) : (adsrAttack A).st = .attack := rfl

theorem volConfig_fixed {word : Cell} (h : word.getLsbD 15 = false) : volConfig word = .fixed (s16 (word <<< 1)) := by
  unfold volConfig
  rw [if_neg (by rw [h]; decide)]

theorem volConfig_sweep {word : Cell} (h : word.getLsbD 15 = true) : ∃ p, volConfig word = .sweep p (word.getLsbD 12) := by
  unfold volConfig
  rw [if_pos h]
  exact ⟨_, rfl⟩

/-- One sweep cycle: a fixed level is taken over; a sweep leaves a magnitude in 0..0x7FFF with its phase's sign (R258). -/
theorem sweepCycle_cases (word : Cell) (U : VolUnit) :
    (word.getLsbD 15 = false ∧ sweepCycle word U = { U with level := word <<< 1 }) ∨
    (word.getLsbD 15 = true ∧ ∃ (m : Int) (d : Nat), 0 ≤ m ∧ m ≤ 0x7FFF ∧ d ≤ 0x7FFF ∧
      sweepCycle word U = { level := sweepLevel (word.getLsbD 12) m, divider := BitVec.ofNat 16 d }) := by
  cases h : word.getLsbD 15 with
  | false => exact .inl ⟨rfl, by simp [sweepCycle, volConfig_fixed h, u16_s16]⟩
  | true =>
    obtain ⟨p, hp⟩ := volConfig_sweep h
    refine .inr ⟨rfl, ?_⟩
    simp only [sweepCycle, hp]
    split
    · exact ⟨_, _, (clamp_bounds (by norm_num) _).1, (clamp_bounds (by norm_num) _).2, by omega, rfl⟩
    · exact ⟨_, _, (clamp_bounds (by norm_num) _).1, (clamp_bounds (by norm_num) _).2, by omega, rfl⟩

/-- The step of Attack is positive at every level (R228). -/
theorem attack_lvlStep_pos (cfg : BitVec 32) (level : Int) : 0 < lvlStep (adsrParams cfg .attack) level := by
  have hs : ∀ (shift : Nat) (step : Int), 0 < step → 0 < (steps shift step).2 := fun shift step h => by
    unfold steps
    split
    · exact mul_pos h (by positivity)
    · exact h
  have hf : (0 : Int) < 7 - (field cfg 8 2 : Nat) := by
    have := (cfg.extractLsb' 8 2).isLt
    unfold field
    omega
  unfold adsrParams
  simp only
  split
  · unfold smoothUpParams lvlStep
    simp only
    split <;> exact hs _ _ hf
  · exact hs _ _ hf

end Sys2Proof.Machine
end

