-- ==== Sys2Proof/Laws/Memory.lean ====
section
/-!
SUPPORT. The laws of sparse cell storage: read after write, and every write keeps the canonical form and the bound on indices.
-/

namespace Sys2Proof.Machine.Memory

@[simp] theorem read_nil (a : Nat) : read [] a = blank := rfl

/-- An index below every listed one reads as blank. -/
theorem read_of_lt {m : Memory} {a : Nat} (h : ∀ p ∈ m, a < p.1) : m.read a = blank := by
  induction m with
  | nil => rfl
  | cons p m ih =>
    have hp : a < p.1 := h p (by simp)
    simp only [read]
    rw [if_neg (Nat.ne_of_lt hp)]
    exact ih fun q hq => h q (by simp [hq])

theorem wf_tail {p : Nat × Cell} {m : Memory} (h : wf (p :: m)) : wf m :=
  ⟨(List.pairwise_cons.mp h.1).2, fun q hq => h.2 q (by simp [hq])⟩

theorem wf_head_lt {p : Nat × Cell} {m : Memory} (h : wf (p :: m)) : ∀ q ∈ m, p.1 < q.1 :=
  (List.pairwise_cons.mp h.1).1

/-- The cell just written reads back (R87), in canonical memory. -/
theorem read_write_same {m : Memory} (h : m.wf) (a : Nat) (x : Cell) : (m.write a x).read a = x := by
  induction m with
  | nil => by_cases hx : x = blank <;> simp [write, read, hx]
  | cons p m ih =>
    obtain ⟨b, y⟩ := p
    have hlt := wf_head_lt h
    simp only [write]
    split
    · rename_i hab
      split
      · rename_i hx
        subst hx
        refine read_of_lt ?_
        intro q hq
        rcases List.mem_cons.mp hq with rfl | hq
        · exact hab
        · exact Nat.lt_trans hab (hlt q hq)
      · simp [read]
    · split
      · rename_i hab
        subst hab
        split
        · rename_i hx
          subst hx
          exact read_of_lt hlt
        · simp [read]
      · rename_i hne
        simp only [read, if_neg hne]
        exact ih (wf_tail h)

/-- A write leaves every other index as it was, in any memory. -/
theorem read_write_other (m : Memory) {a b : Nat} (hab : b ≠ a) (x : Cell) : (m.write a x).read b = m.read b := by
  induction m with
  | nil => by_cases hx : x = blank <;> simp [write, read, hx, hab]
  | cons p m ih =>
    obtain ⟨c, y⟩ := p
    simp only [write]
    split
    · split
      · rfl
      · simp [read, hab]
    · split
      · rename_i hac
        subst hac
        split <;> simp [read, hab]
      · simp only [read, ih]

/-- An index of a written memory is the one written or one that was listed. -/
theorem mem_write {m : Memory} {a : Nat} {x : Cell} {p : Nat × Cell} (h : p ∈ m.write a x) :
    (p = (a, x) ∧ x ≠ blank) ∨ p ∈ m := by
  induction m with
  | nil => by_cases hx : x = blank <;> simp_all [write]
  | cons q m ih =>
    obtain ⟨b, y⟩ := q
    simp only [write] at h
    split at h
    · split at h
      · exact .inr h
      · rcases List.mem_cons.mp h with rfl | h
        · exact .inl ⟨rfl, ‹_›⟩
        · exact .inr h
    · split at h
      · split at h
        · exact .inr (by simp [h])
        · rcases List.mem_cons.mp h with rfl | h
          · exact .inl ⟨rfl, ‹_›⟩
          · exact .inr (by simp [h])
      · rcases List.mem_cons.mp h with rfl | h
        · exact .inr (by simp)
        · rcases ih h with h | h
          · exact .inl h
          · exact .inr (by simp [h])

/-- A write keeps the canonical form. -/
theorem wf_write {m : Memory} (h : m.wf) (a : Nat) (x : Cell) : (m.write a x).wf := by
  induction m with
  | nil => by_cases hx : x = blank <;> simp [write, wf, hx]
  | cons p m ih =>
    obtain ⟨b, y⟩ := p
    have hlt := wf_head_lt h
    have hy : y ≠ blank := h.2 (b, y) (by simp)
    simp only [write]
    split
    · rename_i hab
      split
      · exact h
      · rename_i hx
        refine ⟨List.pairwise_cons.mpr ⟨?_, h.1⟩, ?_⟩
        · intro q hq
          rcases List.mem_cons.mp hq with rfl | hq
          · exact hab
          · exact Nat.lt_trans hab (hlt q hq)
        · intro q hq
          rcases List.mem_cons.mp hq with rfl | hq
          · exact hx
          · exact h.2 q hq
    · split
      · rename_i hab
        subst hab
        split
        · exact wf_tail h
        · rename_i hx
          refine ⟨List.pairwise_cons.mpr ⟨hlt, (wf_tail h).1⟩, ?_⟩
          intro q hq
          rcases List.mem_cons.mp hq with rfl | hq
          · exact hx
          · exact (wf_tail h).2 q hq
      · rename_i hge hne
        have ih' := ih (wf_tail h)
        refine ⟨List.pairwise_cons.mpr ⟨?_, ih'.1⟩, ?_⟩
        · intro q hq
          rcases mem_write hq with ⟨rfl, -⟩ | hq
          · simp only; omega
          · exact hlt q hq
        · intro q hq
          rcases List.mem_cons.mp hq with rfl | hq
          · exact hy
          · exact ih'.2 q hq

/-- A write below `n` keeps every listed index below `n`. -/
theorem below_write {m : Memory} {n a : Nat} (h : m.below n) (ha : a < n) (x : Cell) : (m.write a x).below n := by
  intro p hp
  rcases mem_write hp with ⟨rfl, -⟩ | hp
  · exact ha
  · exact h p hp

/-- Two canonical memories that read alike everywhere are equal data. -/
theorem ext_read {m n : Memory} (hm : m.wf) (hn : n.wf) (h : ∀ a, m.read a = n.read a) : m = n := by
  induction m generalizing n with
  | nil =>
    cases n with
    | nil => rfl
    | cons q n =>
      have := h q.1
      simp only [read, if_true] at this
      exact absurd this.symm (hn.2 q (by simp))
  | cons p m ih =>
    cases n with
    | nil =>
      have := h p.1
      simp only [read, if_true] at this
      exact absurd this (hm.2 p (by simp))
    | cons q n =>
      have hpq : p.1 = q.1 := by
        rcases Nat.lt_trichotomy p.1 q.1 with hlt | heq | hlt
        · have h1 := h p.1
          rw [read_of_lt (m := q :: n) (a := p.1)] at h1
          · simp only [read, if_true] at h1
            exact absurd h1 (hm.2 p (by simp))
          · intro r hr
            rcases List.mem_cons.mp hr with rfl | hr
            · exact hlt
            · exact Nat.lt_trans hlt (wf_head_lt hn r hr)
        · exact heq
        · have h1 := h q.1
          rw [read_of_lt (m := p :: m) (a := q.1)] at h1
          · simp only [read, if_true] at h1
            exact absurd h1.symm (hn.2 q (by simp))
          · intro r hr
            rcases List.mem_cons.mp hr with rfl | hr
            · exact hlt
            · exact Nat.lt_trans hlt (wf_head_lt hm r hr)
      have hval : p.2 = q.2 := by
        have := h p.1
        simp only [read, if_true, hpq] at this
        exact this
      have htail : m = n := by
        refine ih (wf_tail hm) (wf_tail hn) fun a => ?_
        by_cases ha : a = p.1
        · subst ha
          rw [read_of_lt (wf_head_lt hm), read_of_lt (by rw [hpq]; exact wf_head_lt hn)]
        · have := h a
          simp only [read, if_neg ha, if_neg (hpq ▸ ha)] at this
          exact this
      rw [htail, Prod.ext hpq hval]

@[simp] theorem ofCells_nil : ofCells [] = [] := rfl

/-- Storage built from cells is canonical and lists no index outside 0..0x3FFFF. -/
theorem ofCells_ok (l : List (Index × Cell)) : (ofCells l).wf ∧ (ofCells l).below 0x40000 := by
  induction l with
  | nil => exact ⟨⟨List.Pairwise.nil, nofun⟩, nofun⟩
  | cons p l ih => exact ⟨wf_write ih.1 _ _, below_write ih.2 p.1.isLt _⟩

/-- A cell of storage built from cells: the first that is given for its index, blank if none is. -/
theorem read_ofCells_cons (p : Index × Cell) (l : List (Index × Cell)) (a : Nat) :
    (ofCells (p :: l)).read a = if a = p.1.toNat then p.2 else (ofCells l).read a := by
  split
  · rename_i h
    exact h ▸ read_write_same (ofCells_ok l).1 _ _
  · exact read_write_other _ ‹_› _

end Sys2Proof.Machine.Memory
end

