-- ==== Sys2Proof/Laws/State.lean ====
section
/-!
SUPPORT. One lemma per field and update of State, true by rfl, so that no proof unfolds a record update; then the accessors of registers
and voices.
-/

namespace Sys2Proof.Machine

@[simp] theorem setReg_ram (s : State) (h : CellId) (x : Cell) : (s.setReg h x).ram = s.ram := rfl
@[simp] theorem setReg_keyOn (s : State) (h : CellId) (x : Cell) : (s.setReg h x).keyOn = s.keyOn := rfl
@[simp] theorem setReg_keyOff (s : State) (h : CellId) (x : Cell) : (s.setReg h x).keyOff = s.keyOff := rfl
@[simp] theorem setReg_endx (s : State) (h : CellId) (x : Cell) : (s.setReg h x).endx = s.endx := rfl
@[simp] theorem setReg_xferIndex (s : State) (h : CellId) (x : Cell) : (s.setReg h x).xferIndex = s.xferIndex := rfl
@[simp] theorem setReg_irqLatch (s : State) (h : CellId) (x : Cell) : (s.setReg h x).irqLatch = s.irqLatch := rfl
@[simp] theorem setReg_capIndex (s : State) (h : CellId) (x : Cell) : (s.setReg h x).capIndex = s.capIndex := rfl
@[simp] theorem setReg_nCnt1 (s : State) (h : CellId) (x : Cell) : (s.setReg h x).nCnt1 = s.nCnt1 := rfl
@[simp] theorem setReg_nCnt2 (s : State) (h : CellId) (x : Cell) : (s.setReg h x).nCnt2 = s.nCnt2 := rfl
@[simp] theorem setReg_lfsr (s : State) (h : CellId) (x : Cell) : (s.setReg h x).lfsr = s.lfsr := rfl
@[simp] theorem setReg_mvL (s : State) (h : CellId) (x : Cell) : (s.setReg h x).mvL = s.mvL := rfl
@[simp] theorem setReg_mvR (s : State) (h : CellId) (x : Cell) : (s.setReg h x).mvR = s.mvR := rfl
@[simp] theorem setReg_resyncAcc (s : State) (h : CellId) (x : Cell) : (s.setReg h x).resyncAcc = s.resyncAcc := rfl
@[simp] theorem setReg_voices (s : State) (h : CellId) (x : Cell) : (s.setReg h x).voices = s.voices := rfl
@[simp] theorem setReg_rvCursor (s : State) (h : CellId) (x : Cell) : (s.setReg h x).rvCursor = s.rvCursor := rfl
@[simp] theorem setReg_rvPhase (s : State) (h : CellId) (x : Cell) : (s.setReg h x).rvPhase = s.rvPhase := rfl
@[simp] theorem setReg_dsL (s : State) (h : CellId) (x : Cell) : (s.setReg h x).dsL = s.dsL := rfl
@[simp] theorem setReg_dsR (s : State) (h : CellId) (x : Cell) : (s.setReg h x).dsR = s.dsR := rfl
@[simp] theorem setReg_usL (s : State) (h : CellId) (x : Cell) : (s.setReg h x).usL = s.usL := rfl
@[simp] theorem setReg_usR (s : State) (h : CellId) (x : Cell) : (s.setReg h x).usR = s.usR := rfl
@[simp] theorem setReg_ring (s : State) (h : CellId) (x : Cell) : (s.setReg h x).ring = s.ring := rfl
@[simp] theorem setReg_cdL (s : State) (h : CellId) (x : Cell) : (s.setReg h x).cdL = s.cdL := rfl
@[simp] theorem setReg_cdR (s : State) (h : CellId) (x : Cell) : (s.setReg h x).cdR = s.cdR := rfl
@[simp] theorem setReg_port (s : State) (h : CellId) (x : Cell) : (s.setReg h x).port = s.port := rfl
@[simp] theorem setReg_resp (s : State) (h : CellId) (x : Cell) : (s.setReg h x).resp = s.resp := rfl
@[simp] theorem setReg_voice (s : State) (h : CellId) (x : Cell) (w : VoiceId) : (s.setReg h x).voice w = s.voice w := rfl

@[simp] theorem setVoice_regs (s : State) (v : VoiceId) (V : Voice) : (s.setVoice v V).regs = s.regs := rfl
@[simp] theorem setVoice_ram (s : State) (v : VoiceId) (V : Voice) : (s.setVoice v V).ram = s.ram := rfl
@[simp] theorem setVoice_keyOn (s : State) (v : VoiceId) (V : Voice) : (s.setVoice v V).keyOn = s.keyOn := rfl
@[simp] theorem setVoice_keyOff (s : State) (v : VoiceId) (V : Voice) : (s.setVoice v V).keyOff = s.keyOff := rfl
@[simp] theorem setVoice_endx (s : State) (v : VoiceId) (V : Voice) : (s.setVoice v V).endx = s.endx := rfl
@[simp] theorem setVoice_xferIndex (s : State) (v : VoiceId) (V : Voice) : (s.setVoice v V).xferIndex = s.xferIndex := rfl
@[simp] theorem setVoice_irqLatch (s : State) (v : VoiceId) (V : Voice) : (s.setVoice v V).irqLatch = s.irqLatch := rfl
@[simp] theorem setVoice_capIndex (s : State) (v : VoiceId) (V : Voice) : (s.setVoice v V).capIndex = s.capIndex := rfl
@[simp] theorem setVoice_nCnt1 (s : State) (v : VoiceId) (V : Voice) : (s.setVoice v V).nCnt1 = s.nCnt1 := rfl
@[simp] theorem setVoice_nCnt2 (s : State) (v : VoiceId) (V : Voice) : (s.setVoice v V).nCnt2 = s.nCnt2 := rfl
@[simp] theorem setVoice_lfsr (s : State) (v : VoiceId) (V : Voice) : (s.setVoice v V).lfsr = s.lfsr := rfl
@[simp] theorem setVoice_mvL (s : State) (v : VoiceId) (V : Voice) : (s.setVoice v V).mvL = s.mvL := rfl
@[simp] theorem setVoice_mvR (s : State) (v : VoiceId) (V : Voice) : (s.setVoice v V).mvR = s.mvR := rfl
@[simp] theorem setVoice_resyncAcc (s : State) (v : VoiceId) (V : Voice) : (s.setVoice v V).resyncAcc = s.resyncAcc := rfl
@[simp] theorem setVoice_rvCursor (s : State) (v : VoiceId) (V : Voice) : (s.setVoice v V).rvCursor = s.rvCursor := rfl
@[simp] theorem setVoice_rvPhase (s : State) (v : VoiceId) (V : Voice) : (s.setVoice v V).rvPhase = s.rvPhase := rfl
@[simp] theorem setVoice_dsL (s : State) (v : VoiceId) (V : Voice) : (s.setVoice v V).dsL = s.dsL := rfl
@[simp] theorem setVoice_dsR (s : State) (v : VoiceId) (V : Voice) : (s.setVoice v V).dsR = s.dsR := rfl
@[simp] theorem setVoice_usL (s : State) (v : VoiceId) (V : Voice) : (s.setVoice v V).usL = s.usL := rfl
@[simp] theorem setVoice_usR (s : State) (v : VoiceId) (V : Voice) : (s.setVoice v V).usR = s.usR := rfl
@[simp] theorem setVoice_ring (s : State) (v : VoiceId) (V : Voice) : (s.setVoice v V).ring = s.ring := rfl
@[simp] theorem setVoice_cdL (s : State) (v : VoiceId) (V : Voice) : (s.setVoice v V).cdL = s.cdL := rfl
@[simp] theorem setVoice_cdR (s : State) (v : VoiceId) (V : Voice) : (s.setVoice v V).cdR = s.cdR := rfl
@[simp] theorem setVoice_port (s : State) (v : VoiceId) (V : Voice) : (s.setVoice v V).port = s.port := rfl
@[simp] theorem setVoice_resp (s : State) (v : VoiceId) (V : Voice) : (s.setVoice v V).resp = s.resp := rfl
@[simp] theorem setVoice_reg (s : State) (v : VoiceId) (V : Voice) (k : CellId) : (s.setVoice v V).reg k = s.reg k := rfl
@[simp] theorem setVoice_voiceReg (s : State) (v : VoiceId) (V : Voice) (w : VoiceId) (k : VReg) : (s.setVoice v V).voiceReg w k = s.voiceReg w k := rfl

@[simp] theorem modVoice_regs (s : State) (v : VoiceId) (f : Voice → Voice) : (s.modVoice v f).regs = s.regs := rfl
@[simp] theorem modVoice_ram (s : State) (v : VoiceId) (f : Voice → Voice) : (s.modVoice v f).ram = s.ram := rfl
@[simp] theorem modVoice_keyOn (s : State) (v : VoiceId) (f : Voice → Voice) : (s.modVoice v f).keyOn = s.keyOn := rfl
@[simp] theorem modVoice_keyOff (s : State) (v : VoiceId) (f : Voice → Voice) : (s.modVoice v f).keyOff = s.keyOff := rfl
@[simp] theorem modVoice_endx (s : State) (v : VoiceId) (f : Voice → Voice) : (s.modVoice v f).endx = s.endx := rfl
@[simp] theorem modVoice_xferIndex (s : State) (v : VoiceId) (f : Voice → Voice) : (s.modVoice v f).xferIndex = s.xferIndex := rfl
@[simp] theorem modVoice_irqLatch (s : State) (v : VoiceId) (f : Voice → Voice) : (s.modVoice v f).irqLatch = s.irqLatch := rfl
@[simp] theorem modVoice_capIndex (s : State) (v : VoiceId) (f : Voice → Voice) : (s.modVoice v f).capIndex = s.capIndex := rfl
@[simp] theorem modVoice_nCnt1 (s : State) (v : VoiceId) (f : Voice → Voice) : (s.modVoice v f).nCnt1 = s.nCnt1 := rfl
@[simp] theorem modVoice_nCnt2 (s : State) (v : VoiceId) (f : Voice → Voice) : (s.modVoice v f).nCnt2 = s.nCnt2 := rfl
@[simp] theorem modVoice_lfsr (s : State) (v : VoiceId) (f : Voice → Voice) : (s.modVoice v f).lfsr = s.lfsr := rfl
@[simp] theorem modVoice_mvL (s : State) (v : VoiceId) (f : Voice → Voice) : (s.modVoice v f).mvL = s.mvL := rfl
@[simp] theorem modVoice_mvR (s : State) (v : VoiceId) (f : Voice → Voice) : (s.modVoice v f).mvR = s.mvR := rfl
@[simp] theorem modVoice_resyncAcc (s : State) (v : VoiceId) (f : Voice → Voice) : (s.modVoice v f).resyncAcc = s.resyncAcc := rfl
@[simp] theorem modVoice_rvCursor (s : State) (v : VoiceId) (f : Voice → Voice) : (s.modVoice v f).rvCursor = s.rvCursor := rfl
@[simp] theorem modVoice_rvPhase (s : State) (v : VoiceId) (f : Voice → Voice) : (s.modVoice v f).rvPhase = s.rvPhase := rfl
@[simp] theorem modVoice_dsL (s : State) (v : VoiceId) (f : Voice → Voice) : (s.modVoice v f).dsL = s.dsL := rfl
@[simp] theorem modVoice_dsR (s : State) (v : VoiceId) (f : Voice → Voice) : (s.modVoice v f).dsR = s.dsR := rfl
@[simp] theorem modVoice_usL (s : State) (v : VoiceId) (f : Voice → Voice) : (s.modVoice v f).usL = s.usL := rfl
@[simp] theorem modVoice_usR (s : State) (v : VoiceId) (f : Voice → Voice) : (s.modVoice v f).usR = s.usR := rfl
@[simp] theorem modVoice_ring (s : State) (v : VoiceId) (f : Voice → Voice) : (s.modVoice v f).ring = s.ring := rfl
@[simp] theorem modVoice_cdL (s : State) (v : VoiceId) (f : Voice → Voice) : (s.modVoice v f).cdL = s.cdL := rfl
@[simp] theorem modVoice_cdR (s : State) (v : VoiceId) (f : Voice → Voice) : (s.modVoice v f).cdR = s.cdR := rfl
@[simp] theorem modVoice_port (s : State) (v : VoiceId) (f : Voice → Voice) : (s.modVoice v f).port = s.port := rfl
@[simp] theorem modVoice_resp (s : State) (v : VoiceId) (f : Voice → Voice) : (s.modVoice v f).resp = s.resp := rfl
@[simp] theorem modVoice_reg (s : State) (v : VoiceId) (f : Voice → Voice) (k : CellId) : (s.modVoice v f).reg k = s.reg k := rfl
@[simp] theorem modVoice_voiceReg (s : State) (v : VoiceId) (f : Voice → Voice) (w : VoiceId) (k : VReg) : (s.modVoice v f).voiceReg w k = s.voiceReg w k := rfl

@[simp] theorem respond_regs (s : State) (r : Response) : (s.respond r).regs = s.regs := rfl
@[simp] theorem respond_ram (s : State) (r : Response) : (s.respond r).ram = s.ram := rfl
@[simp] theorem respond_keyOn (s : State) (r : Response) : (s.respond r).keyOn = s.keyOn := rfl
@[simp] theorem respond_keyOff (s : State) (r : Response) : (s.respond r).keyOff = s.keyOff := rfl
@[simp] theorem respond_endx (s : State) (r : Response) : (s.respond r).endx = s.endx := rfl
@[simp] theorem respond_xferIndex (s : State) (r : Response) : (s.respond r).xferIndex = s.xferIndex := rfl
@[simp] theorem respond_irqLatch (s : State) (r : Response) : (s.respond r).irqLatch = s.irqLatch := rfl
@[simp] theorem respond_capIndex (s : State) (r : Response) : (s.respond r).capIndex = s.capIndex := rfl
@[simp] theorem respond_nCnt1 (s : State) (r : Response) : (s.respond r).nCnt1 = s.nCnt1 := rfl
@[simp] theorem respond_nCnt2 (s : State) (r : Response) : (s.respond r).nCnt2 = s.nCnt2 := rfl
@[simp] theorem respond_lfsr (s : State) (r : Response) : (s.respond r).lfsr = s.lfsr := rfl
@[simp] theorem respond_mvL (s : State) (r : Response) : (s.respond r).mvL = s.mvL := rfl
@[simp] theorem respond_mvR (s : State) (r : Response) : (s.respond r).mvR = s.mvR := rfl
@[simp] theorem respond_resyncAcc (s : State) (r : Response) : (s.respond r).resyncAcc = s.resyncAcc := rfl
@[simp] theorem respond_voices (s : State) (r : Response) : (s.respond r).voices = s.voices := rfl
@[simp] theorem respond_rvCursor (s : State) (r : Response) : (s.respond r).rvCursor = s.rvCursor := rfl
@[simp] theorem respond_rvPhase (s : State) (r : Response) : (s.respond r).rvPhase = s.rvPhase := rfl
@[simp] theorem respond_dsL (s : State) (r : Response) : (s.respond r).dsL = s.dsL := rfl
@[simp] theorem respond_dsR (s : State) (r : Response) : (s.respond r).dsR = s.dsR := rfl
@[simp] theorem respond_usL (s : State) (r : Response) : (s.respond r).usL = s.usL := rfl
@[simp] theorem respond_usR (s : State) (r : Response) : (s.respond r).usR = s.usR := rfl
@[simp] theorem respond_ring (s : State) (r : Response) : (s.respond r).ring = s.ring := rfl
@[simp] theorem respond_cdL (s : State) (r : Response) : (s.respond r).cdL = s.cdL := rfl
@[simp] theorem respond_cdR (s : State) (r : Response) : (s.respond r).cdR = s.cdR := rfl
@[simp] theorem respond_port (s : State) (r : Response) : (s.respond r).port = s.port := rfl
@[simp] theorem respond_reg (s : State) (r : Response) (k : CellId) : (s.respond r).reg k = s.reg k := rfl
@[simp] theorem respond_voiceReg (s : State) (r : Response) (w : VoiceId) (k : VReg) : (s.respond r).voiceReg w k = s.voiceReg w k := rfl
@[simp] theorem respond_voice (s : State) (r : Response) (w : VoiceId) : (s.respond r).voice w = s.voice w := rfl

@[simp] theorem taken_regs (s : State) (r : List CmdWord) : (s.taken r).regs = s.regs := rfl
@[simp] theorem taken_ram (s : State) (r : List CmdWord) : (s.taken r).ram = s.ram := rfl
@[simp] theorem taken_keyOn (s : State) (r : List CmdWord) : (s.taken r).keyOn = s.keyOn := rfl
@[simp] theorem taken_keyOff (s : State) (r : List CmdWord) : (s.taken r).keyOff = s.keyOff := rfl
@[simp] theorem taken_endx (s : State) (r : List CmdWord) : (s.taken r).endx = s.endx := rfl
@[simp] theorem taken_xferIndex (s : State) (r : List CmdWord) : (s.taken r).xferIndex = s.xferIndex := rfl
@[simp] theorem taken_irqLatch (s : State) (r : List CmdWord) : (s.taken r).irqLatch = s.irqLatch := rfl
@[simp] theorem taken_capIndex (s : State) (r : List CmdWord) : (s.taken r).capIndex = s.capIndex := rfl
@[simp] theorem taken_nCnt1 (s : State) (r : List CmdWord) : (s.taken r).nCnt1 = s.nCnt1 := rfl
@[simp] theorem taken_nCnt2 (s : State) (r : List CmdWord) : (s.taken r).nCnt2 = s.nCnt2 := rfl
@[simp] theorem taken_lfsr (s : State) (r : List CmdWord) : (s.taken r).lfsr = s.lfsr := rfl
@[simp] theorem taken_mvL (s : State) (r : List CmdWord) : (s.taken r).mvL = s.mvL := rfl
@[simp] theorem taken_mvR (s : State) (r : List CmdWord) : (s.taken r).mvR = s.mvR := rfl
@[simp] theorem taken_resyncAcc (s : State) (r : List CmdWord) : (s.taken r).resyncAcc = s.resyncAcc := rfl
@[simp] theorem taken_voices (s : State) (r : List CmdWord) : (s.taken r).voices = s.voices := rfl
@[simp] theorem taken_rvCursor (s : State) (r : List CmdWord) : (s.taken r).rvCursor = s.rvCursor := rfl
@[simp] theorem taken_rvPhase (s : State) (r : List CmdWord) : (s.taken r).rvPhase = s.rvPhase := rfl
@[simp] theorem taken_dsL (s : State) (r : List CmdWord) : (s.taken r).dsL = s.dsL := rfl
@[simp] theorem taken_dsR (s : State) (r : List CmdWord) : (s.taken r).dsR = s.dsR := rfl
@[simp] theorem taken_usL (s : State) (r : List CmdWord) : (s.taken r).usL = s.usL := rfl
@[simp] theorem taken_usR (s : State) (r : List CmdWord) : (s.taken r).usR = s.usR := rfl
@[simp] theorem taken_ring (s : State) (r : List CmdWord) : (s.taken r).ring = s.ring := rfl
@[simp] theorem taken_cdL (s : State) (r : List CmdWord) : (s.taken r).cdL = s.cdL := rfl
@[simp] theorem taken_cdR (s : State) (r : List CmdWord) : (s.taken r).cdR = s.cdR := rfl
@[simp] theorem taken_reg (s : State) (r : List CmdWord) (k : CellId) : (s.taken r).reg k = s.reg k := rfl
@[simp] theorem taken_voiceReg (s : State) (r : List CmdWord) (w : VoiceId) (k : VReg) : (s.taken r).voiceReg w k = s.voiceReg w k := rfl
@[simp] theorem taken_voice (s : State) (r : List CmdWord) (w : VoiceId) : (s.taken r).voice w = s.voice w := rfl

@[simp] theorem irqClear_regs (s : State) : (irqClear s).regs = s.regs := rfl
@[simp] theorem irqClear_ram (s : State) : (irqClear s).ram = s.ram := rfl
@[simp] theorem irqClear_keyOn (s : State) : (irqClear s).keyOn = s.keyOn := rfl
@[simp] theorem irqClear_keyOff (s : State) : (irqClear s).keyOff = s.keyOff := rfl
@[simp] theorem irqClear_endx (s : State) : (irqClear s).endx = s.endx := rfl
@[simp] theorem irqClear_xferIndex (s : State) : (irqClear s).xferIndex = s.xferIndex := rfl
@[simp] theorem irqClear_capIndex (s : State) : (irqClear s).capIndex = s.capIndex := rfl
@[simp] theorem irqClear_nCnt1 (s : State) : (irqClear s).nCnt1 = s.nCnt1 := rfl
@[simp] theorem irqClear_nCnt2 (s : State) : (irqClear s).nCnt2 = s.nCnt2 := rfl
@[simp] theorem irqClear_lfsr (s : State) : (irqClear s).lfsr = s.lfsr := rfl
@[simp] theorem irqClear_mvL (s : State) : (irqClear s).mvL = s.mvL := rfl
@[simp] theorem irqClear_mvR (s : State) : (irqClear s).mvR = s.mvR := rfl
@[simp] theorem irqClear_resyncAcc (s : State) : (irqClear s).resyncAcc = s.resyncAcc := rfl
@[simp] theorem irqClear_voices (s : State) : (irqClear s).voices = s.voices := rfl
@[simp] theorem irqClear_rvCursor (s : State) : (irqClear s).rvCursor = s.rvCursor := rfl
@[simp] theorem irqClear_rvPhase (s : State) : (irqClear s).rvPhase = s.rvPhase := rfl
@[simp] theorem irqClear_dsL (s : State) : (irqClear s).dsL = s.dsL := rfl
@[simp] theorem irqClear_dsR (s : State) : (irqClear s).dsR = s.dsR := rfl
@[simp] theorem irqClear_usL (s : State) : (irqClear s).usL = s.usL := rfl
@[simp] theorem irqClear_usR (s : State) : (irqClear s).usR = s.usR := rfl
@[simp] theorem irqClear_ring (s : State) : (irqClear s).ring = s.ring := rfl
@[simp] theorem irqClear_cdL (s : State) : (irqClear s).cdL = s.cdL := rfl
@[simp] theorem irqClear_cdR (s : State) : (irqClear s).cdR = s.cdR := rfl
@[simp] theorem irqClear_port (s : State) : (irqClear s).port = s.port := rfl
@[simp] theorem irqClear_resp (s : State) : (irqClear s).resp = s.resp := rfl
@[simp] theorem irqClear_reg (s : State) (k : CellId) : (irqClear s).reg k = s.reg k := rfl
@[simp] theorem irqClear_voiceReg (s : State) (w : VoiceId) (k : VReg) : (irqClear s).voiceReg w k = s.voiceReg w k := rfl
@[simp] theorem irqClear_voice (s : State) (w : VoiceId) : (irqClear s).voice w = s.voice w := rfl

@[simp] theorem bumpXfer_regs (s : State) : (bumpXfer s).regs = s.regs := rfl
@[simp] theorem bumpXfer_ram (s : State) : (bumpXfer s).ram = s.ram := rfl
@[simp] theorem bumpXfer_keyOn (s : State) : (bumpXfer s).keyOn = s.keyOn := rfl
@[simp] theorem bumpXfer_keyOff (s : State) : (bumpXfer s).keyOff = s.keyOff := rfl
@[simp] theorem bumpXfer_endx (s : State) : (bumpXfer s).endx = s.endx := rfl
@[simp] theorem bumpXfer_irqLatch (s : State) : (bumpXfer s).irqLatch = s.irqLatch := rfl
@[simp] theorem bumpXfer_capIndex (s : State) : (bumpXfer s).capIndex = s.capIndex := rfl
@[simp] theorem bumpXfer_nCnt1 (s : State) : (bumpXfer s).nCnt1 = s.nCnt1 := rfl
@[simp] theorem bumpXfer_nCnt2 (s : State) : (bumpXfer s).nCnt2 = s.nCnt2 := rfl
@[simp] theorem bumpXfer_lfsr (s : State) : (bumpXfer s).lfsr = s.lfsr := rfl
@[simp] theorem bumpXfer_mvL (s : State) : (bumpXfer s).mvL = s.mvL := rfl
@[simp] theorem bumpXfer_mvR (s : State) : (bumpXfer s).mvR = s.mvR := rfl
@[simp] theorem bumpXfer_resyncAcc (s : State) : (bumpXfer s).resyncAcc = s.resyncAcc := rfl
@[simp] theorem bumpXfer_voices (s : State) : (bumpXfer s).voices = s.voices := rfl
@[simp] theorem bumpXfer_rvCursor (s : State) : (bumpXfer s).rvCursor = s.rvCursor := rfl
@[simp] theorem bumpXfer_rvPhase (s : State) : (bumpXfer s).rvPhase = s.rvPhase := rfl
@[simp] theorem bumpXfer_dsL (s : State) : (bumpXfer s).dsL = s.dsL := rfl
@[simp] theorem bumpXfer_dsR (s : State) : (bumpXfer s).dsR = s.dsR := rfl
@[simp] theorem bumpXfer_usL (s : State) : (bumpXfer s).usL = s.usL := rfl
@[simp] theorem bumpXfer_usR (s : State) : (bumpXfer s).usR = s.usR := rfl
@[simp] theorem bumpXfer_ring (s : State) : (bumpXfer s).ring = s.ring := rfl
@[simp] theorem bumpXfer_cdL (s : State) : (bumpXfer s).cdL = s.cdL := rfl
@[simp] theorem bumpXfer_cdR (s : State) : (bumpXfer s).cdR = s.cdR := rfl
@[simp] theorem bumpXfer_port (s : State) : (bumpXfer s).port = s.port := rfl
@[simp] theorem bumpXfer_resp (s : State) : (bumpXfer s).resp = s.resp := rfl
@[simp] theorem bumpXfer_reg (s : State) (k : CellId) : (bumpXfer s).reg k = s.reg k := rfl
@[simp] theorem bumpXfer_voiceReg (s : State) (w : VoiceId) (k : VReg) : (bumpXfer s).voiceReg w k = s.voiceReg w k := rfl
@[simp] theorem bumpXfer_voice (s : State) (w : VoiceId) : (bumpXfer s).voice w = s.voice w := rfl

@[simp] theorem setEndx_regs (v : VoiceId) (s : State) : (setEndx v s).regs = s.regs := rfl
@[simp] theorem setEndx_ram (v : VoiceId) (s : State) : (setEndx v s).ram = s.ram := rfl
@[simp] theorem setEndx_keyOn (v : VoiceId) (s : State) : (setEndx v s).keyOn = s.keyOn := rfl
@[simp] theorem setEndx_keyOff (v : VoiceId) (s : State) : (setEndx v s).keyOff = s.keyOff := rfl
@[simp] theorem setEndx_xferIndex (v : VoiceId) (s : State) : (setEndx v s).xferIndex = s.xferIndex := rfl
@[simp] theorem setEndx_irqLatch (v : VoiceId) (s : State) : (setEndx v s).irqLatch = s.irqLatch := rfl
@[simp] theorem setEndx_capIndex (v : VoiceId) (s : State) : (setEndx v s).capIndex = s.capIndex := rfl
@[simp] theorem setEndx_nCnt1 (v : VoiceId) (s : State) : (setEndx v s).nCnt1 = s.nCnt1 := rfl
@[simp] theorem setEndx_nCnt2 (v : VoiceId) (s : State) : (setEndx v s).nCnt2 = s.nCnt2 := rfl
@[simp] theorem setEndx_lfsr (v : VoiceId) (s : State) : (setEndx v s).lfsr = s.lfsr := rfl
@[simp] theorem setEndx_mvL (v : VoiceId) (s : State) : (setEndx v s).mvL = s.mvL := rfl
@[simp] theorem setEndx_mvR (v : VoiceId) (s : State) : (setEndx v s).mvR = s.mvR := rfl
@[simp] theorem setEndx_resyncAcc (v : VoiceId) (s : State) : (setEndx v s).resyncAcc = s.resyncAcc := rfl
@[simp] theorem setEndx_voices (v : VoiceId) (s : State) : (setEndx v s).voices = s.voices := rfl
@[simp] theorem setEndx_rvCursor (v : VoiceId) (s : State) : (setEndx v s).rvCursor = s.rvCursor := rfl
@[simp] theorem setEndx_rvPhase (v : VoiceId) (s : State) : (setEndx v s).rvPhase = s.rvPhase := rfl
@[simp] theorem setEndx_dsL (v : VoiceId) (s : State) : (setEndx v s).dsL = s.dsL := rfl
@[simp] theorem setEndx_dsR (v : VoiceId) (s : State) : (setEndx v s).dsR = s.dsR := rfl
@[simp] theorem setEndx_usL (v : VoiceId) (s : State) : (setEndx v s).usL = s.usL := rfl
@[simp] theorem setEndx_usR (v : VoiceId) (s : State) : (setEndx v s).usR = s.usR := rfl
@[simp] theorem setEndx_ring (v : VoiceId) (s : State) : (setEndx v s).ring = s.ring := rfl
@[simp] theorem setEndx_cdL (v : VoiceId) (s : State) : (setEndx v s).cdL = s.cdL := rfl
@[simp] theorem setEndx_cdR (v : VoiceId) (s : State) : (setEndx v s).cdR = s.cdR := rfl
@[simp] theorem setEndx_port (v : VoiceId) (s : State) : (setEndx v s).port = s.port := rfl
@[simp] theorem setEndx_resp (v : VoiceId) (s : State) : (setEndx v s).resp = s.resp := rfl
@[simp] theorem setEndx_reg (v : VoiceId) (s : State) (k : CellId) : (setEndx v s).reg k = s.reg k := rfl
@[simp] theorem setEndx_voiceReg (v : VoiceId) (s : State) (w : VoiceId) (k : VReg) : (setEndx v s).voiceReg w k = s.voiceReg w k := rfl
@[simp] theorem setEndx_voice (v : VoiceId) (s : State) (w : VoiceId) : (setEndx v s).voice w = s.voice w := rfl

@[simp] theorem clearEndx_regs (v : VoiceId) (s : State) : (clearEndx v s).regs = s.regs := rfl
@[simp] theorem clearEndx_ram (v : VoiceId) (s : State) : (clearEndx v s).ram = s.ram := rfl
@[simp] theorem clearEndx_keyOn (v : VoiceId) (s : State) : (clearEndx v s).keyOn = s.keyOn := rfl
@[simp] theorem clearEndx_keyOff (v : VoiceId) (s : State) : (clearEndx v s).keyOff = s.keyOff := rfl
@[simp] theorem clearEndx_xferIndex (v : VoiceId) (s : State) : (clearEndx v s).xferIndex = s.xferIndex := rfl
@[simp] theorem clearEndx_irqLatch (v : VoiceId) (s : State) : (clearEndx v s).irqLatch = s.irqLatch := rfl
@[simp] theorem clearEndx_capIndex (v : VoiceId) (s : State) : (clearEndx v s).capIndex = s.capIndex := rfl
@[simp] theorem clearEndx_nCnt1 (v : VoiceId) (s : State) : (clearEndx v s).nCnt1 = s.nCnt1 := rfl
@[simp] theorem clearEndx_nCnt2 (v : VoiceId) (s : State) : (clearEndx v s).nCnt2 = s.nCnt2 := rfl
@[simp] theorem clearEndx_lfsr (v : VoiceId) (s : State) : (clearEndx v s).lfsr = s.lfsr := rfl
@[simp] theorem clearEndx_mvL (v : VoiceId) (s : State) : (clearEndx v s).mvL = s.mvL := rfl
@[simp] theorem clearEndx_mvR (v : VoiceId) (s : State) : (clearEndx v s).mvR = s.mvR := rfl
@[simp] theorem clearEndx_resyncAcc (v : VoiceId) (s : State) : (clearEndx v s).resyncAcc = s.resyncAcc := rfl
@[simp] theorem clearEndx_voices (v : VoiceId) (s : State) : (clearEndx v s).voices = s.voices := rfl
@[simp] theorem clearEndx_rvCursor (v : VoiceId) (s : State) : (clearEndx v s).rvCursor = s.rvCursor := rfl
@[simp] theorem clearEndx_rvPhase (v : VoiceId) (s : State) : (clearEndx v s).rvPhase = s.rvPhase := rfl
@[simp] theorem clearEndx_dsL (v : VoiceId) (s : State) : (clearEndx v s).dsL = s.dsL := rfl
@[simp] theorem clearEndx_dsR (v : VoiceId) (s : State) : (clearEndx v s).dsR = s.dsR := rfl
@[simp] theorem clearEndx_usL (v : VoiceId) (s : State) : (clearEndx v s).usL = s.usL := rfl
@[simp] theorem clearEndx_usR (v : VoiceId) (s : State) : (clearEndx v s).usR = s.usR := rfl
@[simp] theorem clearEndx_ring (v : VoiceId) (s : State) : (clearEndx v s).ring = s.ring := rfl
@[simp] theorem clearEndx_cdL (v : VoiceId) (s : State) : (clearEndx v s).cdL = s.cdL := rfl
@[simp] theorem clearEndx_cdR (v : VoiceId) (s : State) : (clearEndx v s).cdR = s.cdR := rfl
@[simp] theorem clearEndx_port (v : VoiceId) (s : State) : (clearEndx v s).port = s.port := rfl
@[simp] theorem clearEndx_resp (v : VoiceId) (s : State) : (clearEndx v s).resp = s.resp := rfl
@[simp] theorem clearEndx_reg (v : VoiceId) (s : State) (k : CellId) : (clearEndx v s).reg k = s.reg k := rfl
@[simp] theorem clearEndx_voiceReg (v : VoiceId) (s : State) (w : VoiceId) (k : VReg) : (clearEndx v s).voiceReg w k = s.voiceReg w k := rfl
@[simp] theorem clearEndx_voice (v : VoiceId) (s : State) (w : VoiceId) : (clearEndx v s).voice w = s.voice w := rfl

@[simp] theorem latchKeyOn_regs (m : Mask24) (s : State) : (latchKeyOn m s).regs = s.regs := rfl
@[simp] theorem latchKeyOn_ram (m : Mask24) (s : State) : (latchKeyOn m s).ram = s.ram := rfl
@[simp] theorem latchKeyOn_keyOff (m : Mask24) (s : State) : (latchKeyOn m s).keyOff = s.keyOff := rfl
@[simp] theorem latchKeyOn_endx (m : Mask24) (s : State) : (latchKeyOn m s).endx = s.endx := rfl
@[simp] theorem latchKeyOn_xferIndex (m : Mask24) (s : State) : (latchKeyOn m s).xferIndex = s.xferIndex := rfl
@[simp] theorem latchKeyOn_irqLatch (m : Mask24) (s : State) : (latchKeyOn m s).irqLatch = s.irqLatch := rfl
@[simp] theorem latchKeyOn_capIndex (m : Mask24) (s : State) : (latchKeyOn m s).capIndex = s.capIndex := rfl
@[simp] theorem latchKeyOn_nCnt1 (m : Mask24) (s : State) : (latchKeyOn m s).nCnt1 = s.nCnt1 := rfl
@[simp] theorem latchKeyOn_nCnt2 (m : Mask24) (s : State) : (latchKeyOn m s).nCnt2 = s.nCnt2 := rfl
@[simp] theorem latchKeyOn_lfsr (m : Mask24) (s : State) : (latchKeyOn m s).lfsr = s.lfsr := rfl
@[simp] theorem latchKeyOn_mvL (m : Mask24) (s : State) : (latchKeyOn m s).mvL = s.mvL := rfl
@[simp] theorem latchKeyOn_mvR (m : Mask24) (s : State) : (latchKeyOn m s).mvR = s.mvR := rfl
@[simp] theorem latchKeyOn_resyncAcc (m : Mask24) (s : State) : (latchKeyOn m s).resyncAcc = s.resyncAcc := rfl
@[simp] theorem latchKeyOn_voices (m : Mask24) (s : State) : (latchKeyOn m s).voices = s.voices := rfl
@[simp] theorem latchKeyOn_rvCursor (m : Mask24) (s : State) : (latchKeyOn m s).rvCursor = s.rvCursor := rfl
@[simp] theorem latchKeyOn_rvPhase (m : Mask24) (s : State) : (latchKeyOn m s).rvPhase = s.rvPhase := rfl
@[simp] theorem latchKeyOn_dsL (m : Mask24) (s : State) : (latchKeyOn m s).dsL = s.dsL := rfl
@[simp] theorem latchKeyOn_dsR (m : Mask24) (s : State) : (latchKeyOn m s).dsR = s.dsR := rfl
@[simp] theorem latchKeyOn_usL (m : Mask24) (s : State) : (latchKeyOn m s).usL = s.usL := rfl
@[simp] theorem latchKeyOn_usR (m : Mask24) (s : State) : (latchKeyOn m s).usR = s.usR := rfl
@[simp] theorem latchKeyOn_ring (m : Mask24) (s : State) : (latchKeyOn m s).ring = s.ring := rfl
@[simp] theorem latchKeyOn_cdL (m : Mask24) (s : State) : (latchKeyOn m s).cdL = s.cdL := rfl
@[simp] theorem latchKeyOn_cdR (m : Mask24) (s : State) : (latchKeyOn m s).cdR = s.cdR := rfl
@[simp] theorem latchKeyOn_port (m : Mask24) (s : State) : (latchKeyOn m s).port = s.port := rfl
@[simp] theorem latchKeyOn_resp (m : Mask24) (s : State) : (latchKeyOn m s).resp = s.resp := rfl
@[simp] theorem latchKeyOn_reg (m : Mask24) (s : State) (k : CellId) : (latchKeyOn m s).reg k = s.reg k := rfl
@[simp] theorem latchKeyOn_voiceReg (m : Mask24) (s : State) (w : VoiceId) (k : VReg) : (latchKeyOn m s).voiceReg w k = s.voiceReg w k := rfl
@[simp] theorem latchKeyOn_voice (m : Mask24) (s : State) (w : VoiceId) : (latchKeyOn m s).voice w = s.voice w := rfl

@[simp] theorem latchKeyOff_regs (m : Mask24) (s : State) : (latchKeyOff m s).regs = s.regs := rfl
@[simp] theorem latchKeyOff_ram (m : Mask24) (s : State) : (latchKeyOff m s).ram = s.ram := rfl
@[simp] theorem latchKeyOff_keyOn (m : Mask24) (s : State) : (latchKeyOff m s).keyOn = s.keyOn := rfl
@[simp] theorem latchKeyOff_endx (m : Mask24) (s : State) : (latchKeyOff m s).endx = s.endx := rfl
@[simp] theorem latchKeyOff_xferIndex (m : Mask24) (s : State) : (latchKeyOff m s).xferIndex = s.xferIndex := rfl
@[simp] theorem latchKeyOff_irqLatch (m : Mask24) (s : State) : (latchKeyOff m s).irqLatch = s.irqLatch := rfl
@[simp] theorem latchKeyOff_capIndex (m : Mask24) (s : State) : (latchKeyOff m s).capIndex = s.capIndex := rfl
@[simp] theorem latchKeyOff_nCnt1 (m : Mask24) (s : State) : (latchKeyOff m s).nCnt1 = s.nCnt1 := rfl
@[simp] theorem latchKeyOff_nCnt2 (m : Mask24) (s : State) : (latchKeyOff m s).nCnt2 = s.nCnt2 := rfl
@[simp] theorem latchKeyOff_lfsr (m : Mask24) (s : State) : (latchKeyOff m s).lfsr = s.lfsr := rfl
@[simp] theorem latchKeyOff_mvL (m : Mask24) (s : State) : (latchKeyOff m s).mvL = s.mvL := rfl
@[simp] theorem latchKeyOff_mvR (m : Mask24) (s : State) : (latchKeyOff m s).mvR = s.mvR := rfl
@[simp] theorem latchKeyOff_resyncAcc (m : Mask24) (s : State) : (latchKeyOff m s).resyncAcc = s.resyncAcc := rfl
@[simp] theorem latchKeyOff_voices (m : Mask24) (s : State) : (latchKeyOff m s).voices = s.voices := rfl
@[simp] theorem latchKeyOff_rvCursor (m : Mask24) (s : State) : (latchKeyOff m s).rvCursor = s.rvCursor := rfl
@[simp] theorem latchKeyOff_rvPhase (m : Mask24) (s : State) : (latchKeyOff m s).rvPhase = s.rvPhase := rfl
@[simp] theorem latchKeyOff_dsL (m : Mask24) (s : State) : (latchKeyOff m s).dsL = s.dsL := rfl
@[simp] theorem latchKeyOff_dsR (m : Mask24) (s : State) : (latchKeyOff m s).dsR = s.dsR := rfl
@[simp] theorem latchKeyOff_usL (m : Mask24) (s : State) : (latchKeyOff m s).usL = s.usL := rfl
@[simp] theorem latchKeyOff_usR (m : Mask24) (s : State) : (latchKeyOff m s).usR = s.usR := rfl
@[simp] theorem latchKeyOff_ring (m : Mask24) (s : State) : (latchKeyOff m s).ring = s.ring := rfl
@[simp] theorem latchKeyOff_cdL (m : Mask24) (s : State) : (latchKeyOff m s).cdL = s.cdL := rfl
@[simp] theorem latchKeyOff_cdR (m : Mask24) (s : State) : (latchKeyOff m s).cdR = s.cdR := rfl
@[simp] theorem latchKeyOff_port (m : Mask24) (s : State) : (latchKeyOff m s).port = s.port := rfl
@[simp] theorem latchKeyOff_resp (m : Mask24) (s : State) : (latchKeyOff m s).resp = s.resp := rfl
@[simp] theorem latchKeyOff_reg (m : Mask24) (s : State) (k : CellId) : (latchKeyOff m s).reg k = s.reg k := rfl
@[simp] theorem latchKeyOff_voiceReg (m : Mask24) (s : State) (w : VoiceId) (k : VReg) : (latchKeyOff m s).voiceReg w k = s.voiceReg w k := rfl
@[simp] theorem latchKeyOff_voice (m : Mask24) (s : State) (w : VoiceId) : (latchKeyOff m s).voice w = s.voice w := rfl

@[simp] theorem respond_resp (s : State) (r : Response) : (s.respond r).resp = r := rfl
@[simp] theorem taken_port (s : State) (r : List CmdWord) : (s.taken r).port = r := rfl
@[simp] theorem taken_resp (s : State) (r : List CmdWord) : (s.taken r).resp = .none := rfl
@[simp] theorem irqClear_irqLatch (s : State) : (irqClear s).irqLatch = false := rfl
@[simp] theorem bumpXfer_xferIndex (s : State) : (bumpXfer s).xferIndex = s.xferIndex + 1 := rfl
@[simp] theorem latchKeyOn_keyOn (m : Mask24) (s : State) : (latchKeyOn m s).keyOn = s.keyOn ||| m := rfl
@[simp] theorem latchKeyOff_keyOff (m : Mask24) (s : State) : (latchKeyOff m s).keyOff = s.keyOff ||| m := rfl
@[simp] theorem setEndx_endx (v : VoiceId) (s : State) : (setEndx v s).endx = s.endx ||| voiceBit v := rfl
@[simp] theorem clearEndx_endx (v : VoiceId) (s : State) : (clearEndx v s).endx = s.endx &&& ~~~voiceBit v := rfl

/-- The cell written reads back (R14). -/
@[simp] theorem setReg_reg_same (s : State) (h : CellId) (x : Cell) : (s.setReg h x).reg h = x := by
  simp only [State.reg, State.setReg, Vector.get_eq_getElem]
  exact Vector.getElem_set_self h.isLt

/-- A write leaves every other cell as it was. -/
theorem setReg_reg_other (s : State) {h k : CellId} (hk : k ≠ h) (x : Cell) : (s.setReg h x).reg k = s.reg k := by
  have : h.val ≠ k.val := fun e => hk (Fin.ext e.symm)
  simp only [State.reg, State.setReg, Vector.get_eq_getElem]
  exact Vector.getElem_set_ne h.isLt k.isLt this

/-- The voice written reads back. -/
@[simp] theorem setVoice_voice_same (s : State) (v : VoiceId) (V : Voice) : (s.setVoice v V).voice v = V := by
  simp only [State.voice, State.setVoice, Vector.get_eq_getElem]
  exact Vector.getElem_set_self v.isLt

/-- A voice write leaves every other voice as it was. -/
theorem setVoice_voice_other (s : State) {v w : VoiceId} (hw : w ≠ v) (V : Voice) : (s.setVoice v V).voice w = s.voice w := by
  have : v.val ≠ w.val := fun e => hw (Fin.ext e.symm)
  simp only [State.voice, State.setVoice, Vector.get_eq_getElem]
  exact Vector.getElem_set_ne v.isLt w.isLt this

@[simp] theorem modVoice_voice_same (s : State) (v : VoiceId) (f : Voice → Voice) : (s.modVoice v f).voice v = f (s.voice v) :=
  setVoice_voice_same s v _

theorem modVoice_voice_other (s : State) {v w : VoiceId} (hw : w ≠ v) (f : Voice → Voice) : (s.modVoice v f).voice w = s.voice w :=
  setVoice_voice_other s hw _

/-- The bit of a voice in a 24-bit mask: a bit of the LO cell, or of the HI cell from voice 16 up (R44). -/
theorem mask24_voiceBit (hi lo : Cell) (v : VoiceId) :
    (mask24 hi lo).getLsbD v.val = if v.val < 16 then lo.getLsbD v.val else hi.getLsbD (v.val - 16) := by
  have hv := v.isLt
  unfold mask24
  rw [BitVec.getLsbD_append]
  split
  · rfl
  · rw [BitVec.getLsbD_extractLsb', Nat.zero_add]
    simp only [Bool.and_eq_right_iff_imp, decide_eq_true_eq]
    omega

/-- A change of a voice is known by its effect on that voice's record. -/
theorem modVoice_congr {s : State} {v : VoiceId} {f g : Voice → Voice} (h : f (s.voice v) = g (s.voice v)) :
    s.modVoice v f = s.modVoice v g := by
  unfold State.modVoice
  rw [h]

/-- Two changes of one voice are one. -/
theorem modVoice_modVoice (s : State) (v : VoiceId) (f g : Voice → Voice) :
    (s.modVoice v f).modVoice v g = s.modVoice v fun V => g (f V) := by
  have e : (s.modVoice v f).voice v = f (s.voice v) := modVoice_voice_same s v f
  show (s.modVoice v f).setVoice v (g ((s.modVoice v f).voice v)) = s.setVoice v (g (f (s.voice v)))
  rw [e]
  unfold State.modVoice State.setVoice
  simp

end Sys2Proof.Machine
end

