-- ==== Sys2Proof/Laws/Ops.lean ====
section
/-!
SUPPORT. What the shared memory operations can do, said once: `MemOnly` (only sound RAM and the latch may change) and `RamStep P` (cells
outside P read as before, the canonical form and the bound are kept, the latch only rises, and not at all while the watchdog is off).
-/

namespace Sys2Proof.Machine

/-- `t` differs from `s` at most in sound RAM and the IRQ latch. -/
def MemOnly (s t : State) : Prop := t = { s with ram := t.ram, irqLatch := t.irqLatch }

namespace MemOnly

variable {s t u : State}

theorem refl (s : State) : MemOnly s s := rfl

theorem regs (h : MemOnly s t) : t.regs = s.regs := by have e := congrArg State.regs h; exact e
theorem keyOn (h : MemOnly s t) : t.keyOn = s.keyOn := by have e := congrArg State.keyOn h; exact e
theorem keyOff (h : MemOnly s t) : t.keyOff = s.keyOff := by have e := congrArg State.keyOff h; exact e
theorem endx (h : MemOnly s t) : t.endx = s.endx := by have e := congrArg State.endx h; exact e
theorem xferIndex (h : MemOnly s t) : t.xferIndex = s.xferIndex := by have e := congrArg State.xferIndex h; exact e
theorem capIndex (h : MemOnly s t) : t.capIndex = s.capIndex := by have e := congrArg State.capIndex h; exact e
theorem nCnt1 (h : MemOnly s t) : t.nCnt1 = s.nCnt1 := by have e := congrArg State.nCnt1 h; exact e
theorem nCnt2 (h : MemOnly s t) : t.nCnt2 = s.nCnt2 := by have e := congrArg State.nCnt2 h; exact e
theorem lfsr (h : MemOnly s t) : t.lfsr = s.lfsr := by have e := congrArg State.lfsr h; exact e
theorem mvL (h : MemOnly s t) : t.mvL = s.mvL := by have e := congrArg State.mvL h; exact e
theorem mvR (h : MemOnly s t) : t.mvR = s.mvR := by have e := congrArg State.mvR h; exact e
theorem resyncAcc (h : MemOnly s t) : t.resyncAcc = s.resyncAcc := by have e := congrArg State.resyncAcc h; exact e
theorem voices (h : MemOnly s t) : t.voices = s.voices := by have e := congrArg State.voices h; exact e
theorem rvCursor (h : MemOnly s t) : t.rvCursor = s.rvCursor := by have e := congrArg State.rvCursor h; exact e
theorem rvPhase (h : MemOnly s t) : t.rvPhase = s.rvPhase := by have e := congrArg State.rvPhase h; exact e
theorem dsL (h : MemOnly s t) : t.dsL = s.dsL := by have e := congrArg State.dsL h; exact e
theorem dsR (h : MemOnly s t) : t.dsR = s.dsR := by have e := congrArg State.dsR h; exact e
theorem usL (h : MemOnly s t) : t.usL = s.usL := by have e := congrArg State.usL h; exact e
theorem usR (h : MemOnly s t) : t.usR = s.usR := by have e := congrArg State.usR h; exact e
theorem ring (h : MemOnly s t) : t.ring = s.ring := by have e := congrArg State.ring h; exact e
theorem cdL (h : MemOnly s t) : t.cdL = s.cdL := by have e := congrArg State.cdL h; exact e
theorem cdR (h : MemOnly s t) : t.cdR = s.cdR := by have e := congrArg State.cdR h; exact e
theorem port (h : MemOnly s t) : t.port = s.port := by have e := congrArg State.port h; exact e
theorem resp (h : MemOnly s t) : t.resp = s.resp := by have e := congrArg State.resp h; exact e

theorem reg (h : MemOnly s t) (k : CellId) : t.reg k = s.reg k := by rw [State.reg, State.reg, h.regs]
theorem voice (h : MemOnly s t) (v : VoiceId) : t.voice v = s.voice v := by rw [State.voice, State.voice, h.voices]

theorem trans (h : MemOnly s t) (k : MemOnly t u) : MemOnly s u := by
  unfold MemOnly at *
  rw [k, h]

end MemOnly

/-- What a sequence of sound-RAM accesses can do: cells outside `P` read as before (R86, R87), the list stays canonical and in range, and
the latch only rises, and never while the watchdog is off (R444). -/
structure RamStep (P : Nat → Prop) (s t : State) : Prop where
  regs : t.regs = s.regs
  read : ∀ a, ¬ P a → t.ram.read a = s.ram.read a
  wf : s.ram.wf → t.ram.wf
  below : s.ram.below 0x40000 → t.ram.below 0x40000
  latchUp : s.irqLatch = true → t.irqLatch = true
  latchOff : s.irqEn = false → t.irqLatch = s.irqLatch

namespace RamStep

variable {P Q : Nat → Prop} {s t u : State}

theorem of_eq (hr : t.regs = s.regs) (hm : t.ram = s.ram) (hl : t.irqLatch = s.irqLatch) : RamStep P s t :=
  ⟨hr, fun _ _ => by rw [hm], fun h => by rw [hm]; exact h, fun h => by rw [hm]; exact h, fun h => by rw [hl]; exact h, fun _ => hl⟩

theorem refl (s : State) : RamStep P s s := of_eq rfl rfl rfl

theorem mono (h : RamStep P s t) (hPQ : ∀ a, P a → Q a) : RamStep Q s t :=
  ⟨h.regs, fun a ha => h.read a fun hp => ha (hPQ a hp), h.wf, h.below, h.latchUp, h.latchOff⟩

theorem irqEn (h : RamStep P s t) : t.irqEn = s.irqEn := by simp only [State.irqEn, State.reg, h.regs]

theorem trans (h : RamStep P s t) (k : RamStep P t u) : RamStep P s u where
  regs := k.regs.trans h.regs
  read a ha := (k.read a ha).trans (h.read a ha)
  wf w := k.wf (h.wf w)
  below b := k.below (h.below b)
  latchUp l := k.latchUp (h.latchUp l)
  latchOff e := (k.latchOff (h.irqEn.trans e)).trans (h.latchOff e)

end RamStep

/-- The comparator as one record update (R444). -/
theorem irqCheck_eq (i : Index) (s : State) :
    irqCheck i s = { s with irqLatch := s.irqLatch || (s.irqEn && i == s.irqIndex) } := by
  unfold irqCheck
  split
  · rename_i h; simp [h]
  · rename_i h; rw [Bool.not_eq_true] at h; simp [h]

theorem irqCheck_memOnly (i : Index) (s : State) : MemOnly s (irqCheck i s) := by rw [irqCheck_eq]; rfl

@[simp] theorem irqCheck_ram (i : Index) (s : State) : (irqCheck i s).ram = s.ram := by rw [irqCheck_eq]

theorem irqCheck_irqLatch (i : Index) (s : State) :
    (irqCheck i s).irqLatch = (s.irqLatch || (s.irqEn && i == s.irqIndex)) := by rw [irqCheck_eq]

theorem irqCheck_ramStep (P : Nat → Prop) (i : Index) (s : State) : RamStep P s (irqCheck i s) where
  regs := (irqCheck_memOnly i s).regs
  read a _ := by rw [irqCheck_ram]
  wf h := by rw [irqCheck_ram]; exact h
  below h := by rw [irqCheck_ram]; exact h
  latchUp h := by simp [irqCheck_irqLatch, h]
  latchOff h := by simp [irqCheck_irqLatch, h]

/-- A watched write changes the one cell and at most sets the latch (R87). -/
theorem memWrite_memOnly (i : Index) (x : Cell) (s : State) : MemOnly s (memWrite i x s) := by
  simp only [memWrite, irqCheck_eq]; rfl

@[simp] theorem memWrite_ram (i : Index) (x : Cell) (s : State) : (memWrite i x s).ram = s.ram.write i.toNat x := by
  simp only [memWrite, irqCheck_ram]

theorem memWrite_irqLatch (i : Index) (x : Cell) (s : State) :
    (memWrite i x s).irqLatch = (s.irqLatch || (s.irqEn && i == s.irqIndex)) := by simp only [memWrite, irqCheck_irqLatch]

theorem memWrite_ramStep {P : Nat → Prop} (i : Index) (x : Cell) (s : State) (hP : P i.toNat) : RamStep P s (memWrite i x s) where
  regs := (memWrite_memOnly i x s).regs
  read a ha := by
    rw [memWrite_ram]
    exact Memory.read_write_other _ (fun e : a = i.toNat => ha (by rw [e]; exact hP)) x
  wf h := by rw [memWrite_ram]; exact Memory.wf_write h _ _
  below h := by rw [memWrite_ram]; exact Memory.below_write h i.isLt x
  latchUp h := by simp [memWrite_irqLatch, h]
  latchOff h := by simp [memWrite_irqLatch, h]

/-- The cell a watched write stores reads back, in canonical memory (R87). -/
theorem memWrite_read_same {s : State} (h : s.ram.wf) (i : Index) (x : Cell) : (memWrite i x s).ramAt i = x := by
  simp only [State.ramAt, memWrite_ram]
  exact Memory.read_write_same h _ _

/-- The transfer put: one watched write, and the index advances (R372). -/
@[simp] theorem xferPut_xferIndex (x : Cell) (s : State) : (xferPut x s).xferIndex = s.xferIndex + 1 := by
  simp only [xferPut, bumpXfer_xferIndex, (memWrite_memOnly _ _ _).xferIndex]

@[simp] theorem xferPut_ram (x : Cell) (s : State) : (xferPut x s).ram = s.ram.write s.xferIndex.toNat x := by
  simp only [xferPut, bumpXfer_ram, memWrite_ram]

theorem xferPut_irqLatch (x : Cell) (s : State) :
    (xferPut x s).irqLatch = (s.irqLatch || (s.irqEn && s.xferIndex == s.irqIndex)) := by
  simp only [xferPut, bumpXfer_irqLatch, memWrite_irqLatch]

/-- Everything `xferPut` can change. -/
theorem xferPut_frame (x : Cell) (s : State) :
    xferPut x s = { s with ram := (xferPut x s).ram, irqLatch := (xferPut x s).irqLatch, xferIndex := s.xferIndex + 1 } := by
  simp only [xferPut, bumpXfer, memWrite, irqCheck_eq]

theorem xferPut_ramStep {P : Nat → Prop} (x : Cell) (s : State) (hP : P s.xferIndex.toNat) : RamStep P s (xferPut x s) :=
  (memWrite_ramStep s.xferIndex x s hP).trans (RamStep.of_eq rfl rfl rfl)

/-- Changing a voice touches no cell of sound RAM and not the latch. -/
theorem modVoice_ramStep (P : Nat → Prop) (s : State) (v : VoiceId) (f : Voice → Voice) : RamStep P s (s.modVoice v f) :=
  RamStep.of_eq rfl rfl rfl

end Sys2Proof.Machine
end

