-- ==== Sys2Proof/Laws/Adpcm.lean ====
section
/-!
SUPPORT. What the stages of a voice's cycle can do. `VoiceStep v`: only voice v, its ENDX bit, sound RAM and the latch may change. Then the
decoder: it appends exactly four samples or none (R196, R205), and reads sound RAM only.
-/

namespace Sys2Proof.Machine

/-- `t` differs from `s` at most in sound RAM, the latch, the ENDX bit of voice `v` and the record of voice `v` (R191). -/
structure VoiceStep (v : VoiceId) (s t : State) : Prop where
  frame : t = { s with ram := t.ram, irqLatch := t.irqLatch, endx := t.endx, voices := t.voices }
  others : ∀ w, w ≠ v → t.voice w = s.voice w
  endxOthers : ∀ w : VoiceId, w ≠ v → t.endx.getLsbD w.val = s.endx.getLsbD w.val

namespace VoiceStep

variable {v : VoiceId} {s t u : State}

theorem refl (v : VoiceId) (s : State) : VoiceStep v s s := ⟨rfl, fun _ _ => rfl, fun _ _ => rfl⟩

theorem trans (h : VoiceStep v s t) (k : VoiceStep v t u) : VoiceStep v s u where
  frame := by rw [k.frame, h.frame]
  others w hw := (k.others w hw).trans (h.others w hw)
  endxOthers w hw := (k.endxOthers w hw).trans (h.endxOthers w hw)

theorem of_memOnly (v : VoiceId) (h : MemOnly s t) : VoiceStep v s t where
  frame := by rw [h]
  others w _ := h.voice w
  endxOthers w _ := by rw [h.endx]

theorem modVoice (v : VoiceId) (s : State) (f : Voice → Voice) : VoiceStep v s (s.modVoice v f) where
  frame := rfl
  others _ hw := modVoice_voice_other s hw f
  endxOthers _ _ := rfl

end VoiceStep

/-- The bit of another voice is not in a voice's one-bit mask. -/
theorem voiceBit_other {v w : VoiceId} (h : w ≠ v) : (voiceBit v).getLsbD w.val = false := by
  revert v w; decide

@[simp] theorem voiceBit_same (v : VoiceId) : (voiceBit v).getLsbD v.val = true := by revert v; decide

theorem setEndx_voiceStep (v : VoiceId) (s : State) : VoiceStep v s (setEndx v s) where
  frame := rfl
  others _ _ := rfl
  endxOthers w hw := by rw [setEndx_endx, BitVec.getLsbD_or, voiceBit_other hw, Bool.or_false]

theorem clearEndx_voiceStep (v : VoiceId) (s : State) : VoiceStep v s (clearEndx v s) where
  frame := rfl
  others _ _ := rfl
  endxOthers w hw := by
    have hlt : (w : Nat) < 24 := w.isLt
    rw [clearEndx_endx, BitVec.getLsbD_and, BitVec.getLsbD_not, voiceBit_other hw]
    simp [hlt]

/-- The loop action on a header without the loop-end bit (R203). -/
theorem loopAction_none {v : VoiceId} {s : State} (h : hdrLoopEnd (s.voice v).hdr = false) : loopAction v s = s := by
  unfold loopAction
  simp only
  rw [if_neg (by rw [h]; decide)]

/-- The loop action on a loop-end header with the repeat bit (R203). -/
theorem loopAction_repeat {v : VoiceId} {s : State} (h : hdrLoopEnd (s.voice v).hdr = true)
    (hr : hdrLoopRepeat (s.voice v).hdr = true) :
    loopAction v s = setEndx v (s.modVoice v fun V => { V with curIndex := alignDown8 V.loopIndex }) := by
  unfold loopAction
  simp only
  rw [if_pos h, if_pos hr]

/-- The loop action on a loop-end header without the repeat bit (R203, R204). -/
theorem loopAction_stop {v : VoiceId} {s : State} (h : hdrLoopEnd (s.voice v).hdr = true)
    (hr : hdrLoopRepeat (s.voice v).hdr = false) :
    loopAction v s = releaseAndMute v (setEndx v (s.modVoice v fun V => { V with curIndex := alignDown8 V.loopIndex })) := by
  unfold loopAction
  simp only
  rw [if_pos h, if_neg (by rw [hr]; decide)]

/-- A decoder step with enough samples decoded ahead (R196). -/
theorem decoderStep_ahead {c : Config} {v : VoiceId} {s : State} (h : c.fifoDecodeBelow ≤ (s.voice v).fifo.length) :
    decoderStep c v s = decoderCheck ((s.voice v).curIndex - 1) s := by
  unfold decoderStep
  rw [if_pos h]

/-- A decoder step at a block start (R196). -/
theorem decoderStep_block {c : Config} {v : VoiceId} {s : State} (h : ¬ c.fifoDecodeBelow ≤ (s.voice v).fifo.length)
    (hb : atBlockStart (s.voice v) = true) :
    decoderStep c v s =
      fetchData c v (fetchHeader v (decoderCheck ((loopAction v s).voice v).curIndex (loopAction v s))) := by
  unfold decoderStep decodeNext
  rw [if_neg h, if_pos hb]

/-- A decoder step inside a block (R196). -/
theorem decoderStep_inside {c : Config} {v : VoiceId} {s : State} (h : ¬ c.fifoDecodeBelow ≤ (s.voice v).fifo.length)
    (hb : ¬ atBlockStart (s.voice v) = true) :
    decoderStep c v s = fetchData c v (decoderCheck (s.voice v).curIndex s) := by
  unfold decoderStep decodeNext
  rw [if_neg h, if_neg hb]

/-- `loop_action` as a step of its voice (R203). -/
theorem loopAction_voiceStep (v : VoiceId) (s : State) : VoiceStep v s (loopAction v s) := by
  unfold loopAction
  simp only
  split
  · have h := (VoiceStep.modVoice v s fun V => { V with curIndex := alignDown8 V.loopIndex }).trans (setEndx_voiceStep v _)
    split
    · exact h
    · exact h.trans (VoiceStep.modVoice v _ _)
  · exact VoiceStep.refl v s

theorem loopAction_ramStep (P : Nat → Prop) (v : VoiceId) (s : State) : RamStep P s (loopAction v s) := by
  unfold loopAction
  simp only
  split
  · split <;> exact RamStep.of_eq rfl rfl rfl
  · exact RamStep.refl s

/-- `loop_action` keeps the FIFO and the phase, and a level that it changes is 0 (R203, R204). -/
theorem loopAction_voice (v : VoiceId) (s : State) :
    ((loopAction v s).voice v).fifo = (s.voice v).fifo ∧ ((loopAction v s).voice v).phase = (s.voice v).phase ∧
    ((loopAction v s).voice v).startDelay = (s.voice v).startDelay ∧
    (((loopAction v s).voice v).adsr = (s.voice v).adsr ∨ ((loopAction v s).voice v).adsr = adsrMute (s.voice v).adsr) := by
  unfold loopAction
  simp only
  split
  · split
    · simp
    · simp [releaseAndMute]
  · simp

theorem decoderCheck_memOnly (i : Index) (s : State) : MemOnly s (decoderCheck i s) := by
  unfold decoderCheck
  split
  · exact (irqCheck_memOnly _ _).trans (irqCheck_memOnly _ _)
  · exact MemOnly.refl s

@[simp] theorem decoderCheck_ram (i : Index) (s : State) : (decoderCheck i s).ram = s.ram := by
  unfold decoderCheck
  split
  · rw [irqCheck_ram, irqCheck_ram]
  · rfl

theorem decoderCheck_ramStep (P : Nat → Prop) (i : Index) (s : State) : RamStep P s (decoderCheck i s) := by
  unfold decoderCheck
  split
  · exact (irqCheck_ramStep P _ _).trans (irqCheck_ramStep P _ _)
  · exact RamStep.refl s

/-- What one reconstruction does: it appends one sample and slides the history (R195). -/
theorem reconstruct_spec (c : Config) (t : Int) (V : Voice) :
    reconstruct c t V =
      { V with fifo := V.fifo ++ [u16 (predict c V.hdr V.hist0 V.hist1 t)], hist1 := V.hist0
               hist0 := u16 (predict c V.hdr V.hist0 V.hist1 t) } := rfl

@[simp] theorem reconstruct_adsr (c : Config) (t : Int) (V : Voice) : (reconstruct c t V).adsr = V.adsr := rfl
@[simp] theorem reconstruct_phase (c : Config) (t : Int) (V : Voice) : (reconstruct c t V).phase = V.phase := rfl
@[simp] theorem reconstruct_startDelay (c : Config) (t : Int) (V : Voice) : (reconstruct c t V).startDelay = V.startDelay := rfl
@[simp] theorem reconstruct_fifo_length (c : Config) (t : Int) (V : Voice) :
    (reconstruct c t V).fifo.length = V.fifo.length + 1 := by simp [reconstruct, fifoPush]

/-- `W` differs from `V` at most in the FIFO and the history. -/
def DecodeOnly (V W : Voice) : Prop := W = { V with fifo := W.fifo, hist0 := W.hist0, hist1 := W.hist1 }

theorem DecodeOnly.trans {U V W : Voice} (h : DecodeOnly U V) (k : DecodeOnly V W) : DecodeOnly U W := by
  unfold DecodeOnly at *
  rw [k, h]

theorem reconstruct_decodeOnly (c : Config) (t : Int) (V : Voice) : DecodeOnly V (reconstruct c t V) := rfl

/-- Decoding a data cell changes only the FIFO and the history (R199). -/
theorem decodeCell_decodeOnly (c : Config) (w : Cell) (V : Voice) : DecodeOnly V (decodeCell c w V) := by
  unfold decodeCell
  exact (((reconstruct_decodeOnly c _ V).trans (reconstruct_decodeOnly c _ _)).trans (reconstruct_decodeOnly c _ _)).trans
    (reconstruct_decodeOnly c _ _)

@[simp] theorem decodeCell_fifo_length (c : Config) (w : Cell) (V : Voice) :
    (decodeCell c w V).fifo.length = V.fifo.length + 4 := by
  simp only [decodeCell, reconstruct_fifo_length]

@[simp] theorem decodeCell_adsr (c : Config) (w : Cell) (V : Voice) : (decodeCell c w V).adsr = V.adsr := by
  simp only [decodeCell, reconstruct_adsr]
@[simp] theorem decodeCell_phase (c : Config) (w : Cell) (V : Voice) : (decodeCell c w V).phase = V.phase := by
  simp only [decodeCell, reconstruct_phase]
@[simp] theorem decodeCell_startDelay (c : Config) (w : Cell) (V : Voice) : (decodeCell c w V).startDelay = V.startDelay := by
  simp only [decodeCell, reconstruct_startDelay]

/-- Capturing a header's loop point changes at most the loop index (R200). -/
theorem headerCapture_frame (V : Voice) : headerCapture V = { V with loopIndex := (headerCapture V).loopIndex } := by
  unfold headerCapture
  split <;> rfl

theorem fetchHeader_voice (v : VoiceId) (s : State) :
    ((fetchHeader v s).voice v).fifo = (s.voice v).fifo ∧ ((fetchHeader v s).voice v).phase = (s.voice v).phase ∧
    ((fetchHeader v s).voice v).startDelay = (s.voice v).startDelay ∧ ((fetchHeader v s).voice v).adsr = (s.voice v).adsr := by
  unfold fetchHeader
  rw [modVoice_voice_same]
  simp only
  rw [headerCapture_frame]
  exact ⟨rfl, rfl, rfl, rfl⟩

theorem fetchData_voice (c : Config) (v : VoiceId) (s : State) :
    ((fetchData c v s).voice v).fifo.length = (s.voice v).fifo.length + 4 ∧ ((fetchData c v s).voice v).phase = (s.voice v).phase ∧
    ((fetchData c v s).voice v).startDelay = (s.voice v).startDelay ∧ ((fetchData c v s).voice v).adsr = (s.voice v).adsr := by
  unfold fetchData
  rw [modVoice_voice_same]
  simp

theorem decodeNext_voiceStep (c : Config) (v : VoiceId) (s : State) : VoiceStep v s (decodeNext c v s) := by
  unfold decodeNext
  simp only
  split
  · exact (((loopAction_voiceStep v s).trans (.of_memOnly v (decoderCheck_memOnly _ _))).trans (VoiceStep.modVoice v _ _)).trans
      (VoiceStep.modVoice v _ _)
  · exact (VoiceStep.of_memOnly v (decoderCheck_memOnly _ _)).trans (VoiceStep.modVoice v _ _)

theorem decodeNext_ramStep (P : Nat → Prop) (c : Config) (v : VoiceId) (s : State) : RamStep P s (decodeNext c v s) := by
  unfold decodeNext
  simp only
  split
  · exact (((loopAction_ramStep P v s).trans (decoderCheck_ramStep P _ _)).trans (modVoice_ramStep P _ _ _)).trans
      (modVoice_ramStep P _ _ _)
  · exact (decoderCheck_ramStep P _ _).trans (modVoice_ramStep P _ _ _)

/-- Decoding appends four samples, keeps phase and start delay, and mutes the envelope or keeps it (R196). -/
theorem decodeNext_voice (c : Config) (v : VoiceId) (s : State) :
    ((decodeNext c v s).voice v).fifo.length = (s.voice v).fifo.length + 4 ∧
    ((decodeNext c v s).voice v).phase = (s.voice v).phase ∧
    ((decodeNext c v s).voice v).startDelay = (s.voice v).startDelay ∧
    (((decodeNext c v s).voice v).adsr = (s.voice v).adsr ∨ ((decodeNext c v s).voice v).adsr = adsrMute (s.voice v).adsr) := by
  unfold decodeNext
  simp only
  split
  · obtain ⟨l1, l2, l3, l4⟩ := loopAction_voice v s
    obtain ⟨h1, h2, h3, h4⟩ := fetchHeader_voice v (decoderCheck ((loopAction v s).voice v).curIndex (loopAction v s))
    obtain ⟨d1, d2, d3, d4⟩ := fetchData_voice c v (fetchHeader v (decoderCheck ((loopAction v s).voice v).curIndex (loopAction v s)))
    rw [(decoderCheck_memOnly _ _).voice] at h1 h2 h3 h4
    exact ⟨by rw [d1, h1, l1], by rw [d2, h2, l2], by rw [d3, h3, l3], by rw [d4, h4]; exact l4⟩
  · obtain ⟨d1, d2, d3, d4⟩ := fetchData_voice c v (decoderCheck (s.voice v).curIndex s)
    rw [(decoderCheck_memOnly _ _).voice] at d1 d2 d3 d4
    exact ⟨d1, d2, d3, .inl d4⟩

theorem decoderStep_voiceStep (c : Config) (v : VoiceId) (s : State) : VoiceStep v s (decoderStep c v s) := by
  unfold decoderStep
  split
  · exact .of_memOnly v (decoderCheck_memOnly _ _)
  · exact decodeNext_voiceStep c v s

/-- The decoder reads sound RAM and writes none of it (R191). -/
theorem decoderStep_ramStep (P : Nat → Prop) (c : Config) (v : VoiceId) (s : State) : RamStep P s (decoderStep c v s) := by
  unfold decoderStep
  split
  · exact decoderCheck_ramStep P _ _
  · exact decodeNext_ramStep P c v s

/-- One decoder step: with enough decoded ahead the voice is unchanged; else four samples are appended (R196). -/
theorem decoderStep_voice (c : Config) (v : VoiceId) (s : State) :
    (c.fifoDecodeBelow ≤ (s.voice v).fifo.length ∧ (decoderStep c v s).voice v = s.voice v) ∨
    ((s.voice v).fifo.length < c.fifoDecodeBelow ∧
      ((decoderStep c v s).voice v).fifo.length = (s.voice v).fifo.length + 4 ∧
      ((decoderStep c v s).voice v).phase = (s.voice v).phase ∧
      ((decoderStep c v s).voice v).startDelay = (s.voice v).startDelay ∧
      (((decoderStep c v s).voice v).adsr = (s.voice v).adsr ∨
        ((decoderStep c v s).voice v).adsr = adsrMute (s.voice v).adsr)) := by
  unfold decoderStep
  split
  · exact .inl ⟨‹_›, (decoderCheck_memOnly _ _).voice v⟩
  · exact .inr ⟨by omega, decodeNext_voice c v s⟩

/-- The decoder's two checks as one (R198). -/
theorem decoderCheck_eq (i : Index) (s : State) :
    decoderCheck i s =
      { s with irqLatch := s.irqLatch || (s.irqEn && (i == s.irqIndex || alignDown8 i == s.irqIndex)) } := by
  have e : irqCheck (alignDown8 i) (irqCheck i s) =
      { s with irqLatch := (s.irqLatch || (s.irqEn && i == s.irqIndex)) || (s.irqEn && alignDown8 i == s.irqIndex) } := by
    rw [irqCheck_eq i s, irqCheck_eq]
    rfl
  unfold decoderCheck
  rw [e]
  cases s.irqEn with
  | false => simp only [Bool.false_and, Bool.or_false]; rfl
  | true => simp only [Bool.true_and, Bool.or_assoc]; rfl

theorem headerCapture_curIndex (V : Voice) : (headerCapture V).curIndex = V.curIndex := by
  unfold headerCapture
  split <;> rfl

/-- A header fetch as one change of its voice (R196, R200). -/
theorem fetchHeader_eq (v : VoiceId) (s : State) :
    fetchHeader v s = s.modVoice v fun V =>
      { V with hdr := s.ramAt V.curIndex, curIndex := V.curIndex + 1
               loopIndex := if (s.ramAt V.curIndex).getLsbD 10 && !V.loopForce then V.curIndex else V.loopIndex } := by
  have e : ∀ (V : Voice) (h : Cell),
      ({ headerCapture { V with hdr := h } with curIndex := (headerCapture { V with hdr := h }).curIndex + 1 } : Voice) =
      { V with hdr := h, curIndex := V.curIndex + 1
               loopIndex := if h.getLsbD 10 && !V.loopForce then V.curIndex else V.loopIndex } := fun V h => by
    rw [headerCapture_curIndex]
    unfold headerCapture hdrLoopStart
    simp only
    split <;> rfl
  unfold fetchHeader
  exact modVoice_congr (e _ _)

/-- A data fetch after another change of the same voice (R199). -/
theorem fetchData_modVoice (c : Config) (v : VoiceId) (s : State) (f : Voice → Voice) :
    fetchData c v (s.modVoice v f) =
      s.modVoice v fun V => decodeCell c (s.ramAt (f V).curIndex) { f V with curIndex := (f V).curIndex + 1 } := by
  unfold fetchData
  rw [modVoice_modVoice]
  rfl

end Sys2Proof.Machine
end

