-- ==== Sys2Proof/Laws/Reverb.lean ====
section
/-!
SUPPORT. What the resampler, the noise generator and the reverb can do (R216, R272, R312 to R330): the reverb's accesses stay in the
working area, and with its write gate off it writes no cell.
-/

namespace Sys2Proof.Machine

open Sys2Proof.Safety

/-- Consumption keeps the phase a 12-bit fraction and drops at most four samples (R216). -/
theorem consume_spec (step : Nat) (V : Voice) :
    (consume step V).phase.toNat = (V.phase.toNat + step) % 0x1000 ∧
    (consume step V).fifo = V.fifo.drop ((V.phase.toNat + step) / 0x1000 % 16) ∧
    consume step V = { V with phase := (consume step V).phase, fifo := (consume step V).fifo } := by
  refine ⟨?_, rfl, rfl⟩
  show (BitVec.ofNat 16 _).toNat = _
  rw [BitVec.toNat_ofNat, Nat.mod_eq_of_lt]
  have := Nat.mod_lt (V.phase.toNat + step) (show 0 < 0x1000 by norm_num)
  omega

theorem consume_phase_lt (step : Nat) (V : Voice) : (consume step V).phase.toNat < 0x1000 := by
  rw [(consume_spec step V).1]
  exact Nat.mod_lt _ (by norm_num)

/-- The step is at most 0x3FFF (R214). -/
theorem voiceStep_le (v : VoiceId) (fm : Int) (s : State) : voiceStep v fm s ≤ 0x3FFF := by
  unfold voiceStep
  exact Nat.min_le_right _ _

/-- A noise cycle changes only the generator's three registers (R272). -/
theorem noiseCycle_frame (c : Config) (s : State) :
    noiseCycle c s = { s with nCnt1 := (noiseCycle c s).nCnt1, nCnt2 := (noiseCycle c s).nCnt2, lfsr := (noiseCycle c s).lfsr } := by
  unfold noiseCycle noiseStage2
  simp only
  split
  · split <;> rfl
  · rfl

theorem rvSize_pos (s : State) : 0 < s.rvSize := by
  unfold State.rvSize
  have : s.rvBase.toNat < 2 ^ 18 := s.rvBase.isLt
  omega

/-- The address of a working-area access, as a number (R312). -/
theorem rvAddr_toNat (s : State) (off : Int) :
    ((s.rvAddr off).toNat : Int) =
      s.rvBase.toNat + ((s.rvCursor.toNat : Int) - s.rvBase.toNat + off) % s.rvSize := by
  have hpos := rvSize_pos s
  have h0 := Int.emod_nonneg ((s.rvCursor.toNat : Int) - s.rvBase.toNat + off) (ne_of_gt hpos)
  have h1 := Int.emod_lt_of_pos ((s.rvCursor.toNat : Int) - s.rvBase.toNat + off) hpos
  unfold State.rvAddr
  rw [BitVec.toNat_ofInt]
  have hs : s.rvSize = 0x40000 - (s.rvBase.toNat : Int) := rfl
  have hb : s.rvBase.toNat < 2 ^ 18 := s.rvBase.isLt
  rw [Int.emod_eq_of_lt (by omega) (by norm_num; omega)]
  omega

/-- Every working-area access is at or above the base (R312). -/
theorem rvBase_le_rvAddr (s : State) (off : Int) : s.rvBase.toNat ≤ (s.rvAddr off).toNat := by
  have h := rvAddr_toNat s off
  have h0 := Int.emod_nonneg ((s.rvCursor.toNat : Int) - s.rvBase.toNat + off) (ne_of_gt (rvSize_pos s))
  omega

theorem rvBase_congr {s t : State} (h : t.regs = s.regs) : t.rvBase = s.rvBase := by simp only [State.rvBase, State.reg, h]
theorem rvbWriteEn_congr {s t : State} (h : t.regs = s.regs) : t.rvbWriteEn = s.rvbWriteEn := by
  simp only [State.rvbWriteEn, State.reg, h]

/-- The working area, where the reverb may write: empty while its write gate is off (R312, R317). -/
def RvArea (c : Config) (s : State) (a : Nat) : Prop :=
  (s.rvbWriteEn = true ∨ c.rvbWriteAlways = true) ∧ s.rvBase.toNat ≤ a

theorem RvArea.congr {c : Config} {s t : State} (h : t.regs = s.regs) : RvArea c t = RvArea c s := by
  funext a
  simp only [RvArea, rvBase_congr h, rvbWriteEn_congr h]

/-- A sequence of the reverb's sound-RAM accesses: only RAM and the latch, and writes only in the working area. -/
structure RvStep (c : Config) (s t : State) : Prop where
  mem : MemOnly s t
  ram : RamStep (RvArea c s) s t

namespace RvStep

variable {c : Config} {s t u : State}

theorem refl (c : Config) (s : State) : RvStep c s s := ⟨.refl s, .refl s⟩

theorem trans (h : RvStep c s t) (k : RvStep c t u) : RvStep c s u :=
  ⟨h.mem.trans k.mem, h.ram.trans (k.ram.mono fun a ha => by rw [RvArea.congr h.mem.regs] at ha; exact ha)⟩

end RvStep

/-- A reverb read (R316). -/
theorem rvRead_step (c : Config) (off : Int) (s : State) : RvStep c s (rvRead off s).2 :=
  ⟨irqCheck_memOnly _ _, irqCheck_ramStep _ _ _⟩

/-- A reverb write (R317). -/
theorem rvWrite_step (c : Config) (off x : Int) (s : State) : RvStep c s (rvWrite c off x s) := by
  unfold rvWrite
  split
  · rename_i h
    exact ⟨memWrite_memOnly _ _ _, memWrite_ramStep _ _ _ ⟨by simpa using h, rvBase_le_rvAddr s off⟩⟩
  · exact .refl c s

/-- With the gate off a reverb write does nothing at all (R317). -/
theorem rvWrite_off {c : Config} {s : State} (h : s.rvbWriteEn = false) (hc : c.rvbWriteAlways = false) (off x : Int) :
    rvWrite c off x s = s := by
  unfold rvWrite
  rw [h, hc]
  rfl

theorem reflect_step (c : Config) (d m : CellId) (x : Int) (s : State) : RvStep c s (reflect c d m x s) := by
  unfold reflect
  exact ((rvRead_step c _ s).trans (rvRead_step c _ _)).trans (rvWrite_step c _ _ _)

theorem comb_step (c : Config) (side : Side) (s : State) : RvStep c s (comb side s).2 := by
  unfold comb
  exact (((rvRead_step c _ s).trans (rvRead_step c _ _)).trans (rvRead_step c _ _)).trans (rvRead_step c _ _)

theorem allPass_step (c : Config) (m d g : CellId) (x : Int) (s : State) : RvStep c s (allPass c m d g x s).2 := by
  unfold allPass
  exact (rvRead_step c _ s).trans (rvWrite_step c _ _ _)

/-- No access. -/
theorem watched_none (s : State) : WatchedAccesses [] s s := ⟨rfl, by simp⟩

/-- Accesses one after another. -/
theorem watched_append {l k : List Index} {s t u : State} (h : WatchedAccesses l s t) (g : WatchedAccesses k t u) :
    WatchedAccesses (l ++ k) s u := by
  have hm : MemOnly s t := h.1
  refine ⟨hm.trans g.1, ?_⟩
  rw [g.2, h.2, hm.reg, hm.reg, List.any_append, Bool.and_or_distrib_left, Bool.or_assoc]

/-- One check, as the access of a cell (R444). -/
theorem irqCheck_watched (i : Index) (s : State) : WatchedAccesses [i] s (irqCheck i s) := by
  refine ⟨irqCheck_memOnly i s, ?_⟩
  have e : (i == s.irqIndex) = decide (i.toNat = 4 * (s.reg 0xD2).toNat) := index_beq i (s.reg 0xD2)
  rw [irqCheck_irqLatch, e]
  simp only [List.any_cons, List.any_nil, Bool.or_false]
  rfl

/-- A reverb read is watched (R316). -/
theorem rvRead_watched (off : Int) (s : State) : WatchedAccesses [s.rvAddr off] s (rvRead off s).2 := irqCheck_watched _ _

/-- A reverb write is watched if its gate is open, and is nothing otherwise (R317). -/
theorem rvWrite_watched (c : Config) (off x : Int) (s : State) : WatchedAccesses (gatedCell c off s) s (rvWrite c off x s) := by
  have e : (s.rvbWriteEn || c.rvbWriteAlways) = ((s.reg 0xD5).getLsbD 7 || c.rvbWriteAlways) := rfl
  unfold rvWrite gatedCell
  rw [e]
  split
  · exact ⟨memWrite_memOnly _ _ _, (irqCheck_watched _ s).2⟩
  · exact watched_none s

/-- The addresses of the working area depend on the registers and the cursor only (R312). -/
theorem rvAddr_congr {s t : State} (h : MemOnly s t) (off : Int) : t.rvAddr off = s.rvAddr off := by
  simp only [State.rvAddr, State.rvSize, rvBase_congr h.regs, h.rvCursor]

theorem gatedCell_congr {s t : State} (h : MemOnly s t) (c : Config) (off : Int) : gatedCell c off t = gatedCell c off s := by
  simp only [gatedCell, h.reg, rvAddr_congr h]

/-- The network of one side touches sound RAM in the working area only, and the latch (R320). -/
theorem reverbSide_step (c : Config) (side : Side) (x : Int) (s : State) : RvStep c s (reverbSide c side x s).2 := by
  unfold reverbSide
  exact ((((reflect_step c _ _ _ s).trans (reflect_step c _ _ _ _)).trans (comb_step c _ _)).trans (allPass_step c _ _ _ _ _)).trans
    (allPass_step c _ _ _ _ _)

/-- One reverb cycle: everything it can change (R320, R330). -/
theorem reverbCycle_frame (c : Config) (inL inR : Int) (s : State) :
    (reverbCycle c inL inR s).2 =
      { s with ram := (reverbCycle c inL inR s).2.ram, irqLatch := (reverbCycle c inL inR s).2.irqLatch
               dsL := (reverbCycle c inL inR s).2.dsL, dsR := (reverbCycle c inL inR s).2.dsR
               usL := (reverbCycle c inL inR s).2.usL, usR := (reverbCycle c inL inR s).2.usR
               rvCursor := (reverbCycle c inL inR s).2.rvCursor, rvPhase := !s.rvPhase } := by
  unfold reverbCycle
  simp only
  generalize downsampled c s.rvSide (downsampleIn inL inR s) = x
  have h := (reverbSide_step c s.rvSide x (downsampleIn inL inR s)).mem
  generalize reverbSide c s.rvSide x (downsampleIn inL inR s) = q at *
  obtain ⟨y, u⟩ := q
  simp only at h ⊢
  unfold MemOnly downsampleIn at h
  rw [h]
  cases s.rvSide <;> rfl

/-- The sound-RAM part of a reverb cycle (R317). -/
theorem reverbCycle_ramStep (c : Config) (inL inR : Int) (s : State) : RamStep (RvArea c s) s (reverbCycle c inL inR s).2 := by
  have h := (reverbSide_step c s.rvSide (downsampled c s.rvSide (downsampleIn inL inR s)) (downsampleIn inL inR s)).ram
  have e : RvArea c (downsampleIn inL inR s) = RvArea c s := RvArea.congr rfl
  rw [e] at h
  have h0 : RamStep (RvArea c s) s (downsampleIn inL inR s) := .of_eq rfl rfl rfl
  have h1 := h0.trans h
  unfold reverbCycle
  simp only
  generalize reverbSide c s.rvSide (downsampled c s.rvSide (downsampleIn inL inR s)) (downsampleIn inL inR s) = q at *
  refine h1.trans ?_
  refine RamStep.of_eq ?_ ?_ ?_ <;> cases s.rvSide <;> rfl

/-- The cursor after a reverb cycle: it moves after the right side only, and wraps to the base (R330). -/
theorem reverbCycle_cursor (c : Config) (inL inR : Int) (s : State) :
    (reverbCycle c inL inR s).2.rvCursor =
      if s.rvPhase then (if s.rvCursor = 0x3FFFF#18 then s.rvBase else s.rvCursor + 1) else s.rvCursor := by
  have hm := (reverbSide_step c s.rvSide (downsampled c s.rvSide (downsampleIn inL inR s)) (downsampleIn inL inR s)).mem
  unfold reverbCycle
  simp only
  generalize reverbSide c s.rvSide (downsampled c s.rvSide (downsampleIn inL inR s)) (downsampleIn inL inR s) = q at *
  have hc : q.2.rvCursor = s.rvCursor := hm.rvCursor
  have hb : q.2.rvBase = s.rvBase := rvBase_congr hm.regs
  cases hp : s.rvPhase with
  | false =>
    have hs : s.rvSide = .left := by unfold State.rvSide; rw [hp]; rfl
    rw [hs]
    exact hc
  | true =>
    have hs : s.rvSide = .right := by unfold State.rvSide; rw [hp]; rfl
    rw [hs]
    show (if q.2.rvCursor = 0x3FFFF#18 then q.2.rvBase else q.2.rvCursor + 1) = _
    rw [hc, hb]
    rfl

end Sys2Proof.Machine
end

