-- ==== Sys2Proof/Laws/Ring.lean ====
section
/-!
SUPPORT. The ring buffer: its invariant (R411) is kept by every operation, and what each operation does to the queue of stored samples.
-/

namespace Sys2Proof.Machine

open Sys2Proof.Safety

theorem IsRingSize.two_le {n : Nat} (h : IsRingSize n) : 2 ≤ n ∧ 2 ∣ n := by
  obtain ⟨k, rfl⟩ := h
  have : 0 < 2 ^ k := by positivity
  rw [pow_succ]
  omega

/-- `nextPow2` is a power of two. -/
theorem nextPow2_isPow (x : Nat) : ∃ k, nextPow2 x = 2 ^ k := by
  unfold nextPow2
  split
  · exact ⟨0, rfl⟩
  · exact ⟨_, rfl⟩

/-- `nextPow2 x` is at least x. -/
theorem le_nextPow2 (x : Nat) : x ≤ nextPow2 x := by
  unfold nextPow2
  split
  · omega
  · have := Nat.lt_log2_self (n := x - 1)
    omega

/-- `nextPow2 x` is the least power of two that is at least x (R412). -/
theorem nextPow2_le {x k : Nat} (h : x ≤ 2 ^ k) : nextPow2 x ≤ 2 ^ k := by
  unfold nextPow2
  split
  · exact Nat.one_le_two_pow
  · rename_i h1
    apply Nat.pow_le_pow_right (by norm_num)
    have : x - 1 < 2 ^ k := by omega
    have := (Nat.log2_lt (by omega)).mpr this
    omega

/-- The size of a created ring is a legal ring size (R412). -/
theorem create_size (n : Nat) : IsRingSize (max 2 (nextPow2 n)) := by
  obtain ⟨k, hk⟩ := nextPow2_isPow n
  rw [hk]
  cases k with
  | zero => exact ⟨0, by norm_num⟩
  | succ k =>
    refine ⟨k, ?_⟩
    have : 2 ^ 1 ≤ 2 ^ (k + 1) := Nat.pow_le_pow_right (by norm_num) (by omega)
    omega

/-- A created ring is well-formed (R412). -/
theorem create_ok (n : Nat) (p : RingPolicy) (l : Nat) (o : Bool) : RingOk (Ring.create n p l o) := by
  have h := create_size n
  have h2 := IsRingSize.two_le h
  constructor <;> simp only [Ring.create]
  · exact h
  · omega
  · omega
  · exact ⟨0, rfl⟩
  · exact ⟨0, rfl⟩
  · exact ⟨0, rfl⟩
  · omega
  · omega
  · simp
  · exact ⟨List.Pairwise.nil, by simp⟩
  · intro p hp; simp at hp

/-- Storing a pair keeps the invariant when there is room (R415). -/
theorem store_ok {g : Ring} (h : RingOk g) (hroom : g.fill + 2 ≤ g.size) (l r : Sample) : RingOk (g.store l r) := by
  have h2 := IsRingSize.two_le h.size
  have hw := h.wrLt
  have hmod : (g.wr + 2) % g.size < g.size := Nat.mod_lt _ (by omega)
  have hmod1 : (g.wr + 1) % g.size < g.size := Nat.mod_lt _ (by omega)
  constructor <;> simp only [Ring.store]
  · exact h.size
  · exact hmod
  · exact h.rdLt
  · exact (Nat.dvd_mod_iff h2.2).mpr (Nat.dvd_add h.wrEven ⟨1, rfl⟩)
  · exact h.rdEven
  · exact Nat.dvd_add h.fillEven ⟨1, rfl⟩
  · exact hroom
  · have := h.maxLe; omega
  · rw [h.cursors, Nat.mod_add_mod]; congr 1
  · exact Memory.wf_write (Memory.wf_write h.bufWf _ _) _ _
  · exact Memory.below_write (Memory.below_write h.bufBelow hw _) hmod1 _

/-- Discarding from the oldest end keeps the invariant (R415). -/
theorem dropOld_ok {g : Ring} (h : RingOk g) {k : Nat} (hk : k ≤ g.fill) (he : 2 ∣ k) : RingOk (g.dropOld k) := by
  have h2 := IsRingSize.two_le h.size
  have hf := h.fillLe
  constructor <;> simp only [Ring.dropOld]
  · exact h.size
  · exact h.wrLt
  · exact Nat.mod_lt _ (by omega)
  · exact h.wrEven
  · exact (Nat.dvd_mod_iff h2.2).mpr (Nat.dvd_add h.rdEven he)
  · exact Nat.dvd_sub h.fillEven he
  · omega
  · exact h.maxLe
  · rw [Nat.mod_add_mod, h.cursors]; congr 1; omega
  · exact h.bufWf
  · exact h.bufBelow

theorem refusePair_ok {g : Ring} (h : RingOk g) : RingOk g.refusePair :=
  ⟨h.size, h.wrLt, h.rdLt, h.wrEven, h.rdEven, h.fillEven, h.fillLe, h.maxLe, h.cursors, h.bufWf, h.bufBelow⟩

theorem dropAll_ok {g : Ring} (h : RingOk g) : RingOk g.dropAll := by
  have h2 := IsRingSize.two_le h.size
  constructor <;> simp only [Ring.dropAll]
  · exact h.size
  · omega
  · omega
  · exact ⟨0, rfl⟩
  · exact ⟨0, rfl⟩
  · exact ⟨0, rfl⟩
  · omega
  · exact h.maxLe
  · simp
  · exact h.bufWf
  · exact h.bufBelow

/-- In a well-formed ring "fewer than 2 slots are free" means full (R415). -/
theorem full_of_no_room {g : Ring} (h : RingOk g) (hf : ¬ g.fill + 2 ≤ g.size) : g.fill = g.size := by
  have h2 := (IsRingSize.two_le h.size).2
  have h3 := h.fillLe
  have h4 := h.fillEven
  omega

/-- The half that HalveBuffer discards (R415): even, at least 2, at most the fill. -/
theorem halve_count {g : Ring} (h : RingOk g) (hf : g.fill = g.size) :
    2 ∣ max 2 (g.fill / 2) ∧ max 2 (g.fill / 2) ≤ g.fill := by
  obtain ⟨k, hk⟩ := h.size
  rw [hf, hk, pow_succ]
  have hpos : 0 < 2 ^ k := by positivity
  rw [Nat.mul_div_cancel _ (by norm_num)]
  cases k with
  | zero => simp
  | succ k =>
    have hpos : 0 < 2 ^ k := by positivity
    rw [pow_succ]
    omega

/-- Every push keeps the invariant (R411, R415). -/
theorem push_ok {g : Ring} (h : RingOk g) (c : Config) (l r : Sample) : RingOk (g.push c l r).2 := by
  have h2 := IsRingSize.two_le h.size
  unfold Ring.push
  split
  · exact store_ok h ‹_› l r
  · rename_i hf
    have hfull := full_of_no_room h hf
    cases g.policy with
    | dropOldest =>
      refine store_ok (dropOld_ok h (by omega) ⟨1, rfl⟩) ?_ l r
      simp only [Ring.dropOld]
      omega
    | dropNewest => exact refusePair_ok h
    | halveBuffer =>
      obtain ⟨hd, hle⟩ := halve_count h hfull
      have hk := dropOld_ok h hle hd
      simp only
      split
      · refine store_ok hk ?_ l r
        simp only [Ring.dropOld]
        omega
      · exact refusePair_ok hk
    | reset =>
      refine store_ok (dropAll_ok h) ?_ l r
      simp only [Ring.dropAll]
      omega

/-- Every pop keeps the invariant (R411, R420). -/
theorem pop_ok {g : Ring} (h : RingOk g) (n : Nat) : RingOk (g.pop n).2 := by
  have h2 := IsRingSize.two_le h.size
  have hf := h.fillLe
  have hn : 2 * g.popCount n ≤ g.fill := by unfold Ring.popCount; omega
  constructor <;> simp only [Ring.pop]
  · exact h.size
  · exact h.wrLt
  · exact Nat.mod_lt _ (by omega)
  · exact h.wrEven
  · exact (Nat.dvd_mod_iff h2.2).mpr (Nat.dvd_add h.rdEven ⟨_, rfl⟩)
  · exact Nat.dvd_sub h.fillEven ⟨_, rfl⟩
  · omega
  · exact h.maxLe
  · rw [Nat.mod_add_mod, h.cursors]; congr 1; omega
  · exact h.bufWf
  · exact h.bufBelow

/-- A push changes nothing of the ring's configuration. -/
theorem push_config (c : Config) (l r : Sample) (g : Ring) :
    (g.push c l r).2.size = g.size ∧ (g.push c l r).2.policy = g.policy ∧
    (g.push c l r).2.targetLatency = g.targetLatency ∧ (g.push c l r).2.debugOverlay = g.debugOverlay := by
  unfold Ring.push
  split
  · exact ⟨rfl, rfl, rfl, rfl⟩
  · cases hp : g.policy with
    | halveBuffer => simp only; split <;> exact ⟨rfl, hp, rfl, rfl⟩
    | _ => exact ⟨rfl, hp, rfl, rfl⟩

/-- Reading `k` samples from a position and then one more. -/
theorem samplesFrom_succ (g : Ring) (p k : Nat) :
    g.samplesFrom p (k + 1) = g.samplesFrom p k ++ [g.buf.read ((p + k) % g.size)] := by
  induction k generalizing p with
  | zero => simp [Ring.samplesFrom]
  | succ k ih =>
    rw [Ring.samplesFrom, ih, Ring.samplesFrom, List.cons_append, show p + 1 + k = p + (k + 1) by omega]

@[simp] theorem samplesFrom_length (g : Ring) (p k : Nat) : (g.samplesFrom p k).length = k := by
  induction k generalizing p with
  | zero => rfl
  | succ k ih => rw [Ring.samplesFrom, List.length_cons, ih]

/-- A position matters only modulo the size. -/
theorem samplesFrom_mod (g : Ring) (p k : Nat) : g.samplesFrom (p % g.size) k = g.samplesFrom p k := by
  induction k generalizing p with
  | zero => rfl
  | succ k ih =>
    rw [Ring.samplesFrom, Ring.samplesFrom, Nat.mod_mod, ← ih, ← ih (p + 1), Nat.mod_add_mod]

theorem samplesFrom_drop (g : Ring) (p j k : Nat) : (g.samplesFrom p (j + k)).drop j = g.samplesFrom (p + j) k := by
  induction j generalizing p with
  | zero => simp
  | succ j ih =>
    rw [show j + 1 + k = (j + k) + 1 by omega, Ring.samplesFrom, List.drop_succ_cons, ih]
    congr 1
    omega

theorem samplesFrom_take (g : Ring) (p j k : Nat) : (g.samplesFrom p (j + k)).take j = g.samplesFrom p j := by
  induction j generalizing p with
  | zero => simp [Ring.samplesFrom]
  | succ j ih => rw [show j + 1 + k = (j + k) + 1 by omega, Ring.samplesFrom, List.take_succ_cons, ih, ← Ring.samplesFrom]

/-- Rings with the same size that agree on the cells read give the same samples. -/
theorem samplesFrom_congr {g k : Ring} {p n : Nat} (hs : k.size = g.size)
    (h : ∀ i, i < n → k.buf.read ((p + i) % g.size) = g.buf.read ((p + i) % g.size)) : k.samplesFrom p n = g.samplesFrom p n := by
  induction n with
  | zero => rfl
  | succ n ih => rw [samplesFrom_succ, samplesFrom_succ, ih fun i hi => h i (by omega), hs, h n (by omega)]

@[simp] theorem contents_length (g : Ring) : g.contents.length = g.fill := samplesFrom_length _ _ _

/-- Positions that differ by less than the size are different cells. -/
theorem mod_ne_of_lt {a i j n : Nat} (hij : i < j) (hj : j - i < n) : (a + i) % n ≠ (a + j) % n := by
  intro h
  have h1 : (a + j) % n = ((a + i) + (j - i)) % n := by congr 1; omega
  have h2 : (a + i) ≡ (a + i) + (j - i) [MOD n] := by unfold Nat.ModEq; rw [h, h1]
  have h3 := (Nat.modEq_iff_dvd' (by omega)).mp h2
  have h4 := Nat.le_of_dvd (by omega) h3
  omega

/-- Storing a pair appends it to the queue (R415). -/
theorem store_contents {g : Ring} (h : RingOk g) (hroom : g.fill + 2 ≤ g.size) (l r : Sample) :
    (g.store l r).contents = g.contents ++ [l, r] := by
  have h2 := IsRingSize.two_le h.size
  have hw0 : g.wr = (g.rd + g.fill) % g.size := h.cursors
  have hw1 : (g.wr + 1) % g.size = (g.rd + (g.fill + 1)) % g.size := by rw [hw0, Nat.mod_add_mod]; congr 1
  have hwf := Memory.wf_write h.bufWf g.wr l
  unfold Ring.contents
  have e1 : (g.store l r).fill = g.fill + 1 + 1 := rfl
  have e2 : (g.store l r).rd = g.rd := rfl
  have e3 : (g.store l r).size = g.size := rfl
  have e4 : (g.store l r).buf = (g.buf.write g.wr l).write ((g.wr + 1) % g.size) r := rfl
  rw [e1, e2, samplesFrom_succ, samplesFrom_succ, e3, e4]
  have old : (g.store l r).samplesFrom g.rd g.fill = g.samplesFrom g.rd g.fill := by
    refine samplesFrom_congr e3 fun i hi => ?_
    rw [e4, Memory.read_write_other _ (by rw [hw1]; exact mod_ne_of_lt (by omega) (by omega)),
      Memory.read_write_other _ (by rw [hw0]; exact mod_ne_of_lt (by omega) (by omega))]
  have first : ((g.buf.write g.wr l).write ((g.wr + 1) % g.size) r).read ((g.rd + g.fill) % g.size) = l := by
    rw [← hw0, Memory.read_write_other, Memory.read_write_same h.bufWf]
    rw [hw1, hw0]
    exact mod_ne_of_lt (by omega) (by omega)
  have second : ((g.buf.write g.wr l).write ((g.wr + 1) % g.size) r).read ((g.rd + (g.fill + 1)) % g.size) = r := by
    rw [← hw1, Memory.read_write_same hwf]
  rw [old, first, second, List.append_assoc]
  rfl

/-- Discarding drops the queue's front (R415). -/
theorem dropOld_contents {g : Ring} {k : Nat} (hk : k ≤ g.fill) : (g.dropOld k).contents = g.contents.drop k := by
  have e : g.fill = k + (g.fill - k) := by omega
  unfold Ring.contents
  rw [e, samplesFrom_drop]
  show (g.dropOld k).samplesFrom ((g.rd + k) % g.size) (g.fill - k) = _
  exact (samplesFrom_congr (g := g) (k := g.dropOld k) rfl fun _ _ => rfl).trans (samplesFrom_mod g _ _)

@[simp] theorem refusePair_contents (g : Ring) : g.refusePair.contents = g.contents :=
  samplesFrom_congr rfl fun _ _ => rfl

@[simp] theorem dropAll_contents (g : Ring) : g.dropAll.contents = [] := rfl

/-- POP answers the oldest samples and removes them from the queue (R420). -/
theorem pop_contents {g : Ring} (n : Nat) :
    (g.pop n).1 = g.contents.take (2 * g.popCount n) ∧ (g.pop n).2.contents = g.contents.drop (2 * g.popCount n) := by
  have hn : 2 * g.popCount n ≤ g.fill := by unfold Ring.popCount; omega
  have e : g.fill = 2 * g.popCount n + (g.fill - 2 * g.popCount n) := by omega
  constructor
  · unfold Ring.contents
    rw [e, samplesFrom_take]
    rfl
  · unfold Ring.contents
    rw [e, samplesFrom_drop]
    show (g.pop n).2.samplesFrom ((g.rd + 2 * g.popCount n) % g.size) (g.fill - 2 * g.popCount n) = _
    exact (samplesFrom_congr (g := g) (k := (g.pop n).2) rfl fun _ _ => rfl).trans (samplesFrom_mod g _ _)

end Sys2Proof.Machine
end

