-- ==== Sys2Proof/Laws/Mixer.lean ====
section
/-!
SUPPORT. What a voice cycle, the pass over the 24 voices and a whole tick can change (R280, R282, R287, R298), said once.
-/

namespace Sys2Proof.Machine

/-- The capture cell of a voice at a capture index: voices 1 and 3 have one (R287). -/
def VoiceCaptureCell (s : State) (v : VoiceId) (a : Nat) : Prop :=
  (v = 1 ∧ a = (0x400#18 ||| (0#9 ++ s.capIndex)).toNat) ∨ (v = 3 ∧ a = (0x600#18 ||| (0#9 ++ s.capIndex)).toNat)

/-- The four capture cells of a tick (R90, R287, R298). -/
def CaptureCell (s : State) (a : Nat) : Prop :=
  a = (0#9 ++ s.capIndex : Index).toNat ∨ a = (0x200#18 ||| (0#9 ++ s.capIndex)).toNat ∨
  a = (0x400#18 ||| (0#9 ++ s.capIndex)).toNat ∨ a = (0x600#18 ||| (0#9 ++ s.capIndex)).toNat

theorem VoiceCaptureCell.congr {s t : State} (h : t.capIndex = s.capIndex) : VoiceCaptureCell t = VoiceCaptureCell s := by
  funext v a; simp only [VoiceCaptureCell, h]

theorem voiceCapture_memOnly (v : VoiceId) (e : Int) (s : State) : MemOnly s (voiceCapture v e s) := by
  unfold voiceCapture
  split
  · exact memWrite_memOnly _ _ _
  · split
    · exact memWrite_memOnly _ _ _
    · exact .refl s

theorem voiceCapture_ramStep (v : VoiceId) (e : Int) (s : State) : RamStep (VoiceCaptureCell s v) s (voiceCapture v e s) := by
  unfold voiceCapture
  split
  · rename_i h; exact memWrite_ramStep _ _ _ (.inl ⟨h, rfl⟩)
  · split
    · rename_i h; exact memWrite_ramStep _ _ _ (.inr ⟨h, rfl⟩)
    · exact .refl s

theorem sweepVoice_voiceStep (v : VoiceId) (s : State) : VoiceStep v s (sweepVoice v s) := .modVoice v s _

theorem advanceVoice_voiceStep (v : VoiceId) (fm : Int) (s : State) : VoiceStep v s (advanceVoice v fm s) := by
  unfold advanceVoice
  exact VoiceStep.modVoice v s _

theorem voiceRestart_voiceStep (c : Config) (v : VoiceId) (s : State) : VoiceStep v s (voiceRestart c v s) := by
  unfold voiceRestart
  exact (VoiceStep.modVoice v s _).trans (clearEndx_voiceStep v _)

theorem keyEvents_voiceStep (c : Config) (v : VoiceId) (s : State) : VoiceStep v s (keyEvents c v s) := by
  unfold keyEvents
  simp only
  split <;> split
  · exact (VoiceStep.modVoice v s _).trans (voiceRestart_voiceStep c v _)
  · exact voiceRestart_voiceStep c v s
  · exact VoiceStep.modVoice v s _
  · exact .refl v s

theorem disableMute_voiceStep (v : VoiceId) (s : State) : VoiceStep v s (disableMute v s) := by
  unfold disableMute
  split
  · exact .refl v s
  · exact .modVoice v s _

theorem keyEvents_ramStep (P : Nat → Prop) (c : Config) (v : VoiceId) (s : State) : RamStep P s (keyEvents c v s) := by
  unfold keyEvents
  simp only
  split <;> split <;> exact .of_eq rfl rfl rfl

theorem disableMute_ramStep (P : Nat → Prop) (v : VoiceId) (s : State) : RamStep P s (disableMute v s) := by
  unfold disableMute
  split <;> exact .of_eq rfl rfl rfl

/-- The state after a voice cycle, without the mixer's sums (R282). -/
def voiceCycleState (c : Config) (fm : Int) (v : VoiceId) (s : State) : State :=
  let s1 := decoderStep c v s
  let e := enveloped (rawSample c v s1) (s1.voice v)
  disableMute v (keyEvents c v (advanceVoice v fm (sweepVoice v (voiceCapture v e s1))))

theorem voiceCycle_state (c : Config) (p : State × Mix) (v : VoiceId) :
    (voiceCycle c p v).1 = voiceCycleState c p.2.fmPrev v p.1 := rfl

/-- A voice cycle changes only its voice, its ENDX bit, sound RAM and the latch (R191, R282). -/
theorem voiceCycle_voiceStep (c : Config) (p : State × Mix) (v : VoiceId) : VoiceStep v p.1 (voiceCycle c p v).1 := by
  rw [voiceCycle_state]
  unfold voiceCycleState
  exact ((((decoderStep_voiceStep c v p.1).trans (.of_memOnly v (voiceCapture_memOnly _ _ _))).trans (sweepVoice_voiceStep v _)).trans
    (advanceVoice_voiceStep v _ _)).trans ((keyEvents_voiceStep c v _).trans (disableMute_voiceStep v _))

/-- A voice cycle writes at most its capture cell (R287). -/
theorem voiceCycle_ramStep (c : Config) (p : State × Mix) (v : VoiceId) :
    RamStep (VoiceCaptureCell p.1 v) p.1 (voiceCycle c p v).1 := by
  have hc : (decoderStep c v p.1).capIndex = p.1.capIndex := by
    have e := congrArg State.capIndex (decoderStep_voiceStep c v p.1).frame; exact e
  rw [voiceCycle_state]
  unfold voiceCycleState
  have h1 := voiceCapture_ramStep v (enveloped (rawSample c v (decoderStep c v p.1)) ((decoderStep c v p.1).voice v))
    (decoderStep c v p.1)
  rw [VoiceCaptureCell.congr hc] at h1
  exact ((((decoderStep_ramStep _ c v p.1).trans h1).trans (modVoice_ramStep _ _ _ _)).trans (modVoice_ramStep _ _ _ _)).trans
    ((keyEvents_ramStep _ c v _).trans (disableMute_ramStep _ v _))

/-- `t` differs from `s` at most in sound RAM, the latch, the ENDX mask and the voices. -/
def PassFrame (s t : State) : Prop := t = { s with ram := t.ram, irqLatch := t.irqLatch, endx := t.endx, voices := t.voices }

namespace PassFrame

variable {s t u : State}

theorem refl (s : State) : PassFrame s s := rfl
theorem trans (h : PassFrame s t) (k : PassFrame t u) : PassFrame s u := by
  unfold PassFrame at *
  rw [k, h]
theorem regs (h : PassFrame s t) : t.regs = s.regs := by have e := congrArg State.regs h; exact e
theorem keyOn (h : PassFrame s t) : t.keyOn = s.keyOn := by have e := congrArg State.keyOn h; exact e
theorem keyOff (h : PassFrame s t) : t.keyOff = s.keyOff := by have e := congrArg State.keyOff h; exact e
theorem capIndex (h : PassFrame s t) : t.capIndex = s.capIndex := by have e := congrArg State.capIndex h; exact e
theorem lfsr (h : PassFrame s t) : t.lfsr = s.lfsr := by have e := congrArg State.lfsr h; exact e
theorem mvL (h : PassFrame s t) : t.mvL = s.mvL := by have e := congrArg State.mvL h; exact e
theorem mvR (h : PassFrame s t) : t.mvR = s.mvR := by have e := congrArg State.mvR h; exact e
theorem ring (h : PassFrame s t) : t.ring = s.ring := by have e := congrArg State.ring h; exact e
theorem cdL (h : PassFrame s t) : t.cdL = s.cdL := by have e := congrArg State.cdL h; exact e
theorem cdR (h : PassFrame s t) : t.cdR = s.cdR := by have e := congrArg State.cdR h; exact e
theorem reg (h : PassFrame s t) (k : CellId) : t.reg k = s.reg k := by rw [State.reg, State.reg, h.regs]
theorem spuEnable (h : PassFrame s t) : t.spuEnable = s.spuEnable := by rw [State.spuEnable, State.spuEnable, h.reg]

end PassFrame

theorem VoiceStep.pass {v : VoiceId} {s t : State} (h : VoiceStep v s t) : PassFrame s t := h.frame

/-- Any sequence of voice cycles. -/
theorem cycles_frame (c : Config) (l : List VoiceId) (p : State × Mix) : PassFrame p.1 (l.foldl (voiceCycle c) p).1 := by
  induction l generalizing p with
  | nil => exact .refl _
  | cons v l ih => exact (voiceCycle_voiceStep c p v).pass.trans (ih _)

theorem cycles_ramStep (c : Config) (l : List VoiceId) (p : State × Mix) :
    RamStep (fun a => ∃ v ∈ l, VoiceCaptureCell p.1 v a) p.1 (l.foldl (voiceCycle c) p).1 := by
  induction l generalizing p with
  | nil => exact .refl _
  | cons v l ih =>
    have h1 := (voiceCycle_ramStep c p v).mono (Q := fun a => ∃ w ∈ v :: l, VoiceCaptureCell p.1 w a)
      fun a ha => ⟨v, by simp, ha⟩
    refine h1.trans ((ih _).mono ?_)
    rintro a ⟨w, hw, ha⟩
    rw [VoiceCaptureCell.congr (voiceCycle_voiceStep c p v).pass.capIndex] at ha
    exact ⟨w, by simp [hw], ha⟩

/-- Voices that a sequence of cycles does not name are untouched by it. -/
theorem cycles_other (c : Config) (l : List VoiceId) (p : State × Mix) {w : VoiceId} (hw : w ∉ l) :
    (l.foldl (voiceCycle c) p).1.voice w = p.1.voice w ∧
    (l.foldl (voiceCycle c) p).1.endx.getLsbD w.val = p.1.endx.getLsbD w.val := by
  induction l generalizing p with
  | nil => exact ⟨rfl, rfl⟩
  | cons v l ih =>
    have hv : w ≠ v := fun e => hw (by simp [e])
    have hs := voiceCycle_voiceStep c p v
    obtain ⟨h1, h2⟩ := ih (voiceCycle c p v) fun h => hw (by simp [h])
    exact ⟨h1.trans (hs.others w hv), h2.trans (hs.endxOthers w hv)⟩

/-- What a voice is after a sequence of cycles in which it has its turn: what its own cycle made of it. -/
theorem cycles_own (c : Config) (l : List VoiceId) (hl : l.Nodup) (p : State × Mix) {w : VoiceId} (hw : w ∈ l) :
    ∃ q : State × Mix, PassFrame p.1 q.1 ∧ q.1.voice w = p.1.voice w ∧ q.1.endx.getLsbD w.val = p.1.endx.getLsbD w.val ∧
      (l.foldl (voiceCycle c) p).1.voice w = (voiceCycle c q w).1.voice w ∧
      (l.foldl (voiceCycle c) p).1.endx.getLsbD w.val = (voiceCycle c q w).1.endx.getLsbD w.val := by
  induction l generalizing p with
  | nil => simp at hw
  | cons v l ih =>
    rcases List.nodup_cons.mp hl with ⟨hv, hl'⟩
    by_cases e : w = v
    · subst e
      obtain ⟨h1, h2⟩ := cycles_other c l (voiceCycle c p w) hv
      exact ⟨p, .refl _, rfl, rfl, h1, h2⟩
    · have hs := voiceCycle_voiceStep c p v
      obtain ⟨q, hq, h1, h2, h3, h4⟩ := ih hl' (voiceCycle c p v) (by simpa [e] using hw)
      exact ⟨q, hs.pass.trans hq, h1.trans (hs.others w e), h2.trans (hs.endxOthers w e), h3, h4⟩

theorem voiceIds_nodup : voiceIds.Nodup := by decide

theorem mem_voiceIds (v : VoiceId) : v ∈ voiceIds := by revert v; decide

theorem voicePass_frame (c : Config) (s : State) : PassFrame s (voicePass c s).1 := cycles_frame c voiceIds (s, Mix.zero)

/-- The pass over the voices writes the two voice-capture cells only (R287). -/
theorem voicePass_ramStep (c : Config) (s : State) : RamStep (CaptureCell s) s (voicePass c s).1 :=
  (cycles_ramStep c voiceIds (s, Mix.zero)).mono fun a ⟨v, _, h⟩ => by
    rcases h with ⟨-, h⟩ | ⟨-, h⟩
    · exact .inr (.inr (.inl h))
    · exact .inr (.inr (.inr h))

/-- What the pass leaves of one voice is what its own cycle made of it, from a state with the same registers and latches. -/
theorem voicePass_own (c : Config) (s : State) (w : VoiceId) :
    ∃ q : State × Mix, PassFrame s q.1 ∧ q.1.voice w = s.voice w ∧ q.1.endx.getLsbD w.val = s.endx.getLsbD w.val ∧
      (voicePass c s).1.voice w = (voiceCycle c q w).1.voice w ∧
      (voicePass c s).1.endx.getLsbD w.val = (voiceCycle c q w).1.endx.getLsbD w.val :=
  cycles_own c voiceIds voiceIds_nodup (s, Mix.zero) (mem_voiceIds w)

theorem cdCapture_memOnly (s : State) : MemOnly s (cdCapture s) := by
  unfold cdCapture
  exact (memWrite_memOnly _ _ _).trans (memWrite_memOnly _ _ _)

theorem cdCapture_ramStep (s : State) : RamStep (CaptureCell s) s (cdCapture s) := by
  unfold cdCapture
  refine (memWrite_ramStep _ _ _ (.inl rfl)).trans (memWrite_ramStep _ _ _ ?_)
  exact .inr (.inl rfl)

/-- The state before the reverb cycle of a tick (R280, steps T1 to T5). -/
def tickDry (c : Config) (s : State) : State := cdCapture (noiseCycle c (voicePass c s).1)

/-- The sums before the reverb cycle of a tick (R280, steps T1 to T6). -/
def tickMix (c : Config) (s : State) : Mix := cdBlend (tickDry c s) (muteMix (tickDry c s) (voicePass c s).2)

/-- The reverb cycle of a tick (R280, step T7). -/
def tickWet (c : Config) (s : State) : (Int × Int) × State :=
  reverbCycle c (sat16 (tickMix c s).lrev) (sat16 (tickMix c s).rrev) (tickDry c s)

/-- A tick, in its stages. -/
theorem tick_eq (c : Config) (s : State) :
    tick c s = finishTick c ((tickMix c s).lmix + (tickWet c s).1.1) ((tickMix c s).rmix + (tickWet c s).1.2) (tickWet c s).2 := rfl

/-- What the stages before the reverb can change. -/
theorem tickDry_frame (c : Config) (s : State) :
    tickDry c s =
      { s with ram := (tickDry c s).ram, irqLatch := (tickDry c s).irqLatch, endx := (voicePass c s).1.endx
               voices := (voicePass c s).1.voices, nCnt1 := (noiseCycle c s).nCnt1, nCnt2 := (noiseCycle c s).nCnt2
               lfsr := (noiseCycle c s).lfsr } := by
  have hp := voicePass_frame c s
  have hm := cdCapture_memOnly (noiseCycle c (voicePass c s).1)
  have hn : noiseCycle c (voicePass c s).1 =
      { s with ram := (voicePass c s).1.ram, irqLatch := (voicePass c s).1.irqLatch, endx := (voicePass c s).1.endx
               voices := (voicePass c s).1.voices, nCnt1 := (noiseCycle c s).nCnt1, nCnt2 := (noiseCycle c s).nCnt2
               lfsr := (noiseCycle c s).lfsr } := by
    generalize (voicePass c s).1 = u at hp ⊢
    unfold PassFrame at hp
    rw [hp]
    unfold noiseCycle noiseStage2 State.noiseShift State.noiseStep State.reg
    simp only
    split
    · split <;> rfl
    · rfl
  unfold tickDry
  unfold MemOnly at hm
  rw [hm, hn]

theorem noiseCycle_ramStep (P : Nat → Prop) (c : Config) (s : State) : RamStep P s (noiseCycle c s) := by
  have h := noiseCycle_frame c s
  exact .of_eq (by rw [h]) (by rw [h]) (by rw [h])

theorem CaptureCell.congr {s t : State} (h : t.capIndex = s.capIndex) : CaptureCell t = CaptureCell s := by
  funext a; simp only [CaptureCell, h]

theorem tickDry_ramStep (c : Config) (s : State) : RamStep (CaptureCell s) s (tickDry c s) := by
  have h1 := (voicePass_ramStep c s).trans (noiseCycle_ramStep _ c _)
  have h2 := cdCapture_ramStep (noiseCycle c (voicePass c s).1)
  have e : (noiseCycle c (voicePass c s).1).capIndex = s.capIndex := by
    rw [noiseCycle_frame]
    exact (voicePass_frame c s).capIndex
  rw [CaptureCell.congr e] at h2
  exact h1.trans h2

/-- The cells a tick may write: its four capture cells, and the working area while the write gate is on (R90, R317, R485). -/
def TickCell (c : Config) (s : State) (a : Nat) : Prop := CaptureCell s a ∨ RvArea c s a

theorem tickWet_ramStep (c : Config) (s : State) : RamStep (TickCell c s) s (tickWet c s).2 := by
  have h1 := tickDry_ramStep c s
  have h2 := reverbCycle_ramStep c (sat16 (tickMix c s).lrev) (sat16 (tickMix c s).rrev) (tickDry c s)
  rw [RvArea.congr h1.regs] at h2
  exact (h1.mono fun a ha => .inl ha).trans (h2.mono fun a ha => .inr ha)

/-- The sound-RAM part of a tick. -/
theorem tick_ramStep (c : Config) (s : State) : RamStep (TickCell c s) s (tick c s) := by
  rw [tick_eq]
  exact (tickWet_ramStep c s).trans (.of_eq rfl rfl rfl)

/-- Everything a tick can change, and the fields whose new value is plain (R280, R301, R302, R330). -/
theorem tick_frame (c : Config) (s : State) :
    tick c s =
      { s with ram := (tick c s).ram, irqLatch := (tick c s).irqLatch, endx := (voicePass c s).1.endx
               voices := (voicePass c s).1.voices, nCnt1 := (noiseCycle c s).nCnt1, nCnt2 := (noiseCycle c s).nCnt2
               lfsr := (noiseCycle c s).lfsr, dsL := (tick c s).dsL, dsR := (tick c s).dsR, usL := (tick c s).usL
               usR := (tick c s).usR, rvCursor := (tickWet c s).2.rvCursor, rvPhase := !s.rvPhase
               mvL := sweepCycle (s.reg 0xC0) s.mvL, mvR := sweepCycle (s.reg 0xC1) s.mvR
               capIndex := s.capIndex + 1, keyOn := 0#24, keyOff := 0#24
               ring := (s.ring.push c (u16 (mainScale ((tickMix c s).lmix + (tickWet c s).1.1) s.mvL))
                 (u16 (mainScale ((tickMix c s).rmix + (tickWet c s).1.2) s.mvR))).2 } := by
  have hd := tickDry_frame c s
  have hr := reverbCycle_frame c (sat16 (tickMix c s).lrev) (sat16 (tickMix c s).rrev) (tickDry c s)
  have hw : (tickWet c s).2 =
      { s with ram := (tickWet c s).2.ram, irqLatch := (tickWet c s).2.irqLatch, endx := (voicePass c s).1.endx
               voices := (voicePass c s).1.voices, nCnt1 := (noiseCycle c s).nCnt1, nCnt2 := (noiseCycle c s).nCnt2
               lfsr := (noiseCycle c s).lfsr, dsL := (tickWet c s).2.dsL, dsR := (tickWet c s).2.dsR
               usL := (tickWet c s).2.usL, usR := (tickWet c s).2.usR, rvCursor := (tickWet c s).2.rvCursor
               rvPhase := !s.rvPhase } := by
    unfold tickWet
    generalize (reverbCycle c (sat16 (tickMix c s).lrev) (sat16 (tickMix c s).rrev) (tickDry c s)).2 = u at hr ⊢
    rw [hr, hd]
  rw [tick_eq]
  generalize (tickWet c s).1.1 = a
  generalize (tickWet c s).1.2 = b
  generalize (tickWet c s).2 = u at hw ⊢
  unfold finishTick sweepMain State.reg
  rw [hw]

@[simp] theorem tick_regs (c : Config) (s : State) : (tick c s).regs = s.regs := by rw [tick_frame]
@[simp] theorem tick_voices (c : Config) (s : State) : (tick c s).voices = (voicePass c s).1.voices := by rw [tick_frame]
@[simp] theorem tick_endx (c : Config) (s : State) : (tick c s).endx = (voicePass c s).1.endx := by rw [tick_frame]
@[simp] theorem tick_keyOn (c : Config) (s : State) : (tick c s).keyOn = 0#24 := by rw [tick_frame]
@[simp] theorem tick_keyOff (c : Config) (s : State) : (tick c s).keyOff = 0#24 := by rw [tick_frame]
@[simp] theorem tick_capIndex (c : Config) (s : State) : (tick c s).capIndex = s.capIndex + 1 := by rw [tick_frame]
@[simp] theorem tick_xferIndex (c : Config) (s : State) : (tick c s).xferIndex = s.xferIndex := by rw [tick_frame]
@[simp] theorem tick_resyncAcc (c : Config) (s : State) : (tick c s).resyncAcc = s.resyncAcc := by rw [tick_frame]
@[simp] theorem tick_cdL (c : Config) (s : State) : (tick c s).cdL = s.cdL := by rw [tick_frame]
@[simp] theorem tick_cdR (c : Config) (s : State) : (tick c s).cdR = s.cdR := by rw [tick_frame]
@[simp] theorem tick_port (c : Config) (s : State) : (tick c s).port = s.port := by rw [tick_frame]
@[simp] theorem tick_resp (c : Config) (s : State) : (tick c s).resp = s.resp := by rw [tick_frame]
@[simp] theorem tick_rvPhase (c : Config) (s : State) : (tick c s).rvPhase = !s.rvPhase := by rw [tick_frame]
@[simp] theorem tick_nCnt1 (c : Config) (s : State) : (tick c s).nCnt1 = (noiseCycle c s).nCnt1 := by rw [tick_frame]
@[simp] theorem tick_nCnt2 (c : Config) (s : State) : (tick c s).nCnt2 = (noiseCycle c s).nCnt2 := by rw [tick_frame]
@[simp] theorem tick_lfsr (c : Config) (s : State) : (tick c s).lfsr = (noiseCycle c s).lfsr := by rw [tick_frame]
@[simp] theorem tick_mvL (c : Config) (s : State) : (tick c s).mvL = sweepCycle (s.reg 0xC0) s.mvL := by rw [tick_frame]
@[simp] theorem tick_mvR (c : Config) (s : State) : (tick c s).mvR = sweepCycle (s.reg 0xC1) s.mvR := by rw [tick_frame]
@[simp] theorem tick_reg (c : Config) (s : State) (h : CellId) : (tick c s).reg h = s.reg h := by
  rw [State.reg, State.reg, tick_regs]
@[simp] theorem tick_voice (c : Config) (s : State) (v : VoiceId) : (tick c s).voice v = (voicePass c s).1.voice v := by
  rw [State.voice, State.voice, tick_voices]

theorem tick_ring (c : Config) (s : State) : ∃ l r, (tick c s).ring = (s.ring.push c l r).2 := by
  rw [tick_frame]
  exact ⟨_, _, rfl⟩

/-- The reverb cursor after a tick (R330). -/
theorem tick_rvCursor (c : Config) (s : State) :
    (tick c s).rvCursor =
      if s.rvPhase then (if s.rvCursor = 0x3FFFF#18 then s.rvBase else s.rvCursor + 1) else s.rvCursor := by
  have h := reverbCycle_cursor c (sat16 (tickMix c s).lrev) (sat16 (tickMix c s).rrev) (tickDry c s)
  have hd := tickDry_frame c s
  have h1 : (tickDry c s).rvPhase = s.rvPhase := by rw [hd]
  have h2 : (tickDry c s).rvCursor = s.rvCursor := by rw [hd]
  have h3 : (tickDry c s).rvBase = s.rvBase := rvBase_congr (by rw [hd])
  rw [h1, h2, h3] at h
  rw [tick_frame]
  exact h

/-- RESYNC's repeated TICK as an iterate. -/
theorem ticks_eq_iterate (c : Config) (n : Nat) (s : State) : ticks c n s = (tick c)^[n] s := by
  induction n generalizing s with
  | zero => rfl
  | succ n ih => exact ih _

/-- What one TICK leaves unchanged, any number of them do. -/
theorem ticks_keep {α : Type} {f : State → α} {c : Config} (hf : ∀ s, f (tick c s) = f s) (n : Nat) (s : State) :
    f (ticks c n s) = f s := by
  induction n generalizing s with
  | zero => rfl
  | succ n ih => exact (ih _).trans (hf s)

end Sys2Proof.Machine
end

