-- ==== Sys2Proof/Laws/Access.lean ====
section
/-!
SUPPORT. Every command, said once: an instruction is a row of a logical register or one of the 16 commands (R120, R130), a row reads or
writes its logical register (R350, R381), and what a register write can change.
-/

namespace Sys2Proof.Machine

/-- The forms of an instruction. -/
inductive InstrForm : Instr → Prop where
  | reads (r : LogReg) : InstrForm (readRow r)
  | writes (r : LogReg) (val : Cell) : InstrForm (writeRow r val)
  | nop : InstrForm .nop
  | rd8 (boff : ByteOff) : InstrForm (.rd8 boff)
  | rd16 (boff : ByteOff) : InstrForm (.rd16 boff)
  | rd32 (boff : ByteOff) : InstrForm (.rd32 boff)
  | push (l r : Sample) : InstrForm (.push l r)
  | wr8 (boff : ByteOff) (b : BitVec 8) : InstrForm (.wr8 boff b)
  | wr16 (boff : ByteOff) (val : Cell) : InstrForm (.wr16 boff val)
  | wr32 (boff : ByteOff) (w : BitVec 32) : InstrForm (.wr32 boff w)
  | dmast (w : BitVec 32) : InstrForm (.dmast w)
  | dmald : InstrForm .dmald
  | tick : InstrForm .tick
  | resync (cycles : BitVec 32) : InstrForm (.resync cycles)
  | cdin (l r : Sample) : InstrForm (.cdin l r)
  | pop (maxPairs : BitVec 32) : InstrForm (.pop maxPairs)
  | ringcfg (size : BitVec 20) (policy : RingPolicy) (overlay : Bool) (latency : BitVec 12) :
      InstrForm (.ringcfg size policy overlay latency)
  | reset : InstrForm .reset

/-- Every instruction has one of the forms. -/
theorem instrForm (i : Instr) : InstrForm i := by
  cases i with
  | nop => exact .nop
  | rd8 boff => exact .rd8 boff
  | rd16 boff => exact .rd16 boff
  | rd32 boff => exact .rd32 boff
  | push l r => exact .push l r
  | wr8 boff b => exact .wr8 boff b
  | wr16 boff val => exact .wr16 boff val
  | wr32 boff w => exact .wr32 boff w
  | dmast w => exact .dmast w
  | dmald => exact .dmald
  | tick => exact .tick
  | resync cycles => exact .resync cycles
  | cdin l r => exact .cdin l r
  | pop maxPairs => exact .pop maxPairs
  | ringcfg size policy overlay latency => exact .ringcfg size policy overlay latency
  | reset => exact .reset
  | rd16VVolL v => exact .reads (.voice v .volL)
  | rd16VVolR v => exact .reads (.voice v .volR)
  | rd16VPitch v => exact .reads (.voice v .pitch)
  | rd16VStart v => exact .reads (.voice v .start)
  | rd16VAdsrLo v => exact .reads (.voice v .adsrLo)
  | rd16VAdsrHi v => exact .reads (.voice v .adsrHi)
  | rd16VLevel v => exact .reads (.voice v .level)
  | rd16VRepeat v => exact .reads (.voice v .repeatIx)
  | rd16MainVolL => exact .reads (.glob .mainVolL)
  | rd16MainVolR => exact .reads (.glob .mainVolR)
  | rd16RvbOutL => exact .reads (.glob .rvbOutL)
  | rd16RvbOutR => exact .reads (.glob .rvbOutR)
  | rd16KonLo => exact .reads (.glob .konLo)
  | rd16KonHi => exact .reads (.glob .konHi)
  | rd16KoffLo => exact .reads (.glob .koffLo)
  | rd16KoffHi => exact .reads (.glob .koffHi)
  | rd16FmLo => exact .reads (.glob .fmLo)
  | rd16FmHi => exact .reads (.glob .fmHi)
  | rd16NoiseLo => exact .reads (.glob .noiseLo)
  | rd16NoiseHi => exact .reads (.glob .noiseHi)
  | rd16RvbEnLo => exact .reads (.glob .rvbEnLo)
  | rd16RvbEnHi => exact .reads (.glob .rvbEnHi)
  | rd16EndxLo => exact .reads (.glob .endxLo)
  | rd16EndxHi => exact .reads (.glob .endxHi)
  | rd16CellD0 => exact .reads (.glob .cellD0)
  | rd16RvbBase => exact .reads (.glob .rvbBase)
  | rd16IrqAddr => exact .reads (.glob .irqAddr)
  | rd16XferAddr => exact .reads (.glob .xferAddr)
  | rd16XferFifo => exact .reads (.glob .xferFifo)
  | rd16Control => exact .reads (.glob .control)
  | rd16XferCtrl => exact .reads (.glob .xferCtrl)
  | rd16Status => exact .reads (.glob .status)
  | rd16CdVolL => exact .reads (.glob .cdVolL)
  | rd16CdVolR => exact .reads (.glob .cdVolR)
  | rd16CellDA => exact .reads (.glob .cellDA)
  | rd16CellDB => exact .reads (.glob .cellDB)
  | rd16CellDC => exact .reads (.glob .cellDC)
  | rd16CellDD => exact .reads (.glob .cellDD)
  | rd16CellDE => exact .reads (.glob .cellDE)
  | rd16CellDF => exact .reads (.glob .cellDF)
  | rd16RvbDAPF1 => exact .reads (.glob .rvbDAPF1)
  | rd16RvbDAPF2 => exact .reads (.glob .rvbDAPF2)
  | rd16RvbVIIR => exact .reads (.glob .rvbVIIR)
  | rd16RvbVCOMB1 => exact .reads (.glob .rvbVCOMB1)
  | rd16RvbVCOMB2 => exact .reads (.glob .rvbVCOMB2)
  | rd16RvbVCOMB3 => exact .reads (.glob .rvbVCOMB3)
  | rd16RvbVCOMB4 => exact .reads (.glob .rvbVCOMB4)
  | rd16RvbVWALL => exact .reads (.glob .rvbVWALL)
  | rd16RvbVAPF1 => exact .reads (.glob .rvbVAPF1)
  | rd16RvbVAPF2 => exact .reads (.glob .rvbVAPF2)
  | rd16RvbMLSAME => exact .reads (.glob .rvbMLSAME)
  | rd16RvbMRSAME => exact .reads (.glob .rvbMRSAME)
  | rd16RvbMLCOMB1 => exact .reads (.glob .rvbMLCOMB1)
  | rd16RvbMRCOMB1 => exact .reads (.glob .rvbMRCOMB1)
  | rd16RvbMLCOMB2 => exact .reads (.glob .rvbMLCOMB2)
  | rd16RvbMRCOMB2 => exact .reads (.glob .rvbMRCOMB2)
  | rd16RvbDLSAME => exact .reads (.glob .rvbDLSAME)
  | rd16RvbDRSAME => exact .reads (.glob .rvbDRSAME)
  | rd16RvbMLDIFF => exact .reads (.glob .rvbMLDIFF)
  | rd16RvbMRDIFF => exact .reads (.glob .rvbMRDIFF)
  | rd16RvbMLCOMB3 => exact .reads (.glob .rvbMLCOMB3)
  | rd16RvbMRCOMB3 => exact .reads (.glob .rvbMRCOMB3)
  | rd16RvbMLCOMB4 => exact .reads (.glob .rvbMLCOMB4)
  | rd16RvbMRCOMB4 => exact .reads (.glob .rvbMRCOMB4)
  | rd16RvbDLDIFF => exact .reads (.glob .rvbDLDIFF)
  | rd16RvbDRDIFF => exact .reads (.glob .rvbDRDIFF)
  | rd16RvbMLAPF1 => exact .reads (.glob .rvbMLAPF1)
  | rd16RvbMRAPF1 => exact .reads (.glob .rvbMRAPF1)
  | rd16RvbMLAPF2 => exact .reads (.glob .rvbMLAPF2)
  | rd16RvbMRAPF2 => exact .reads (.glob .rvbMRAPF2)
  | rd16RvbVLIN => exact .reads (.glob .rvbVLIN)
  | rd16RvbVRIN => exact .reads (.glob .rvbVRIN)
  | rd16VCurvolL v => exact .reads (.curVol v .left)
  | rd16VCurvolR v => exact .reads (.curVol v .right)
  | rd16Unmapped h => exact .reads (.unmapped h)
  | wr16VVolL v val => exact .writes (.voice v .volL) val
  | wr16VVolR v val => exact .writes (.voice v .volR) val
  | wr16VPitch v val => exact .writes (.voice v .pitch) val
  | wr16VStart v val => exact .writes (.voice v .start) val
  | wr16VAdsrLo v val => exact .writes (.voice v .adsrLo) val
  | wr16VAdsrHi v val => exact .writes (.voice v .adsrHi) val
  | wr16VLevel v val => exact .writes (.voice v .level) val
  | wr16VRepeat v val => exact .writes (.voice v .repeatIx) val
  | wr16MainVolL val => exact .writes (.glob .mainVolL) val
  | wr16MainVolR val => exact .writes (.glob .mainVolR) val
  | wr16RvbOutL val => exact .writes (.glob .rvbOutL) val
  | wr16RvbOutR val => exact .writes (.glob .rvbOutR) val
  | wr16KonLo val => exact .writes (.glob .konLo) val
  | wr16KonHi val => exact .writes (.glob .konHi) val
  | wr16KoffLo val => exact .writes (.glob .koffLo) val
  | wr16KoffHi val => exact .writes (.glob .koffHi) val
  | wr16FmLo val => exact .writes (.glob .fmLo) val
  | wr16FmHi val => exact .writes (.glob .fmHi) val
  | wr16NoiseLo val => exact .writes (.glob .noiseLo) val
  | wr16NoiseHi val => exact .writes (.glob .noiseHi) val
  | wr16RvbEnLo val => exact .writes (.glob .rvbEnLo) val
  | wr16RvbEnHi val => exact .writes (.glob .rvbEnHi) val
  | wr16EndxLo val => exact .writes (.glob .endxLo) val
  | wr16EndxHi val => exact .writes (.glob .endxHi) val
  | wr16CellD0 val => exact .writes (.glob .cellD0) val
  | wr16RvbBase val => exact .writes (.glob .rvbBase) val
  | wr16IrqAddr val => exact .writes (.glob .irqAddr) val
  | wr16XferAddr val => exact .writes (.glob .xferAddr) val
  | wr16XferFifo val => exact .writes (.glob .xferFifo) val
  | wr16Control val => exact .writes (.glob .control) val
  | wr16XferCtrl val => exact .writes (.glob .xferCtrl) val
  | wr16Status val => exact .writes (.glob .status) val
  | wr16CdVolL val => exact .writes (.glob .cdVolL) val
  | wr16CdVolR val => exact .writes (.glob .cdVolR) val
  | wr16CellDA val => exact .writes (.glob .cellDA) val
  | wr16CellDB val => exact .writes (.glob .cellDB) val
  | wr16CellDC val => exact .writes (.glob .cellDC) val
  | wr16CellDD val => exact .writes (.glob .cellDD) val
  | wr16CellDE val => exact .writes (.glob .cellDE) val
  | wr16CellDF val => exact .writes (.glob .cellDF) val
  | wr16RvbDAPF1 val => exact .writes (.glob .rvbDAPF1) val
  | wr16RvbDAPF2 val => exact .writes (.glob .rvbDAPF2) val
  | wr16RvbVIIR val => exact .writes (.glob .rvbVIIR) val
  | wr16RvbVCOMB1 val => exact .writes (.glob .rvbVCOMB1) val
  | wr16RvbVCOMB2 val => exact .writes (.glob .rvbVCOMB2) val
  | wr16RvbVCOMB3 val => exact .writes (.glob .rvbVCOMB3) val
  | wr16RvbVCOMB4 val => exact .writes (.glob .rvbVCOMB4) val
  | wr16RvbVWALL val => exact .writes (.glob .rvbVWALL) val
  | wr16RvbVAPF1 val => exact .writes (.glob .rvbVAPF1) val
  | wr16RvbVAPF2 val => exact .writes (.glob .rvbVAPF2) val
  | wr16RvbMLSAME val => exact .writes (.glob .rvbMLSAME) val
  | wr16RvbMRSAME val => exact .writes (.glob .rvbMRSAME) val
  | wr16RvbMLCOMB1 val => exact .writes (.glob .rvbMLCOMB1) val
  | wr16RvbMRCOMB1 val => exact .writes (.glob .rvbMRCOMB1) val
  | wr16RvbMLCOMB2 val => exact .writes (.glob .rvbMLCOMB2) val
  | wr16RvbMRCOMB2 val => exact .writes (.glob .rvbMRCOMB2) val
  | wr16RvbDLSAME val => exact .writes (.glob .rvbDLSAME) val
  | wr16RvbDRSAME val => exact .writes (.glob .rvbDRSAME) val
  | wr16RvbMLDIFF val => exact .writes (.glob .rvbMLDIFF) val
  | wr16RvbMRDIFF val => exact .writes (.glob .rvbMRDIFF) val
  | wr16RvbMLCOMB3 val => exact .writes (.glob .rvbMLCOMB3) val
  | wr16RvbMRCOMB3 val => exact .writes (.glob .rvbMRCOMB3) val
  | wr16RvbMLCOMB4 val => exact .writes (.glob .rvbMLCOMB4) val
  | wr16RvbMRCOMB4 val => exact .writes (.glob .rvbMRCOMB4) val
  | wr16RvbDLDIFF val => exact .writes (.glob .rvbDLDIFF) val
  | wr16RvbDRDIFF val => exact .writes (.glob .rvbDRDIFF) val
  | wr16RvbMLAPF1 val => exact .writes (.glob .rvbMLAPF1) val
  | wr16RvbMRAPF1 val => exact .writes (.glob .rvbMRAPF1) val
  | wr16RvbMLAPF2 val => exact .writes (.glob .rvbMLAPF2) val
  | wr16RvbMRAPF2 val => exact .writes (.glob .rvbMRAPF2) val
  | wr16RvbVLIN val => exact .writes (.glob .rvbVLIN) val
  | wr16RvbVRIN val => exact .writes (.glob .rvbVRIN) val
  | wr16VCurvolL v val => exact .writes (.curVol v .left) val
  | wr16VCurvolR v val => exact .writes (.curVol v .right) val
  | wr16Unmapped h val => exact .writes (.unmapped h) val

/-- A read row answers the value of its register (R381). -/
theorem exec_readRow (r : LogReg) (s : State) : exec (readRow r) s = .next (s.respond (.half (readReg r s))) := by
  cases r with
  | voice v r => cases r <;> rfl
  | glob g => cases g <;> rfl
  | curVol v side => cases side <;> rfl
  | unmapped h => rfl

/-- A write row writes its register (R350). -/
theorem exec_writeRow (r : LogReg) (val : Cell) (s : State) : exec (writeRow r val) s = .next (writeReg r val s) := by
  cases r with
  | voice v r => cases r <;> rfl
  | glob g => cases g <;> rfl
  | curVol v side => cases side <;> rfl
  | unmapped h => rfl

theorem exec_complete (i : Instr) (s : State) : ∃ t, exec i s = .next t := by
  cases instrForm i with
  | reads r => exact ⟨_, exec_readRow r s⟩
  | writes r val => exact ⟨_, exec_writeRow r val s⟩
  | _ => exact ⟨_, rfl⟩

/-- Everything a register write can change (R34, R84). -/
theorem writeReg_frame (r : LogReg) (x : Cell) (s : State) :
    writeReg r x s =
      { s with regs := (writeReg r x s).regs, ram := (writeReg r x s).ram, keyOn := (writeReg r x s).keyOn
               keyOff := (writeReg r x s).keyOff, xferIndex := (writeReg r x s).xferIndex
               irqLatch := (writeReg r x s).irqLatch, voices := (writeReg r x s).voices
               rvCursor := (writeReg r x s).rvCursor } := by
  cases r with
  | voice v r => cases r <;> rfl
  | glob g =>
    cases g with
    | irqAddr => simp only [writeReg, writeGlob, writeIrqAddr, irqCheck_eq]; rfl
    | control =>
      simp only [writeReg, writeGlob, writeControl]
      split
      · simp only [irqCheck_eq]; rfl
      · rfl
    | xferFifo => simp only [writeReg, writeGlob, writeXferFifo, xferPut, bumpXfer, memWrite, irqCheck_eq]; rfl
    | _ => rfl
  | curVol v side => rfl
  | unmapped h => rfl

/-- The register file after a write (R350). -/
theorem writeReg_regs (r : LogReg) (x : Cell) (s : State) :
    (writeReg r x s).regs = match r.storeCell with
      | some h => (s.setReg h x).regs
      | none => s.regs := by
  cases r with
  | voice v r => cases r <;> rfl
  | glob g =>
    cases g with
    | irqAddr => simp only [writeReg, writeGlob, writeIrqAddr, irqCheck_eq]; rfl
    | control =>
      simp only [writeReg, writeGlob, writeControl]
      split
      · simp only [irqCheck_eq]; rfl
      · rfl
    | xferFifo => simp only [writeReg, writeGlob, writeXferFifo, xferPut, bumpXfer, memWrite, irqCheck_eq]; rfl
    | _ => rfl
  | curVol v side => rfl
  | unmapped h => rfl

/-- The cell a write stores to holds the value afterwards. -/
theorem writeReg_reg_same {r : LogReg} {h : CellId} (hr : r.storeCell = some h) (x : Cell) (s : State) :
    (writeReg r x s).reg h = x := by
  have e := writeReg_regs r x s
  rw [hr] at e
  rw [State.reg, e]
  exact setReg_reg_same s h x

/-- A write leaves every cell it does not store to. -/
theorem writeReg_reg_other {r : LogReg} {k : CellId} (hk : r.storeCell ≠ some k) (x : Cell) (s : State) :
    (writeReg r x s).reg k = s.reg k := by
  have e := writeReg_regs r x s
  cases hr : r.storeCell with
  | none => rw [hr] at e; rw [State.reg, State.reg, e]
  | some h =>
    rw [hr] at e
    rw [State.reg, e]
    exact setReg_reg_other s (fun e' => hk (by rw [hr, e'])) x

/-- Sound RAM and the transfer index after a write: only XFER_FIFO writes RAM (R372). -/
theorem writeReg_ram {r : LogReg} (hr : r ≠ .glob .xferFifo) (x : Cell) (s : State) : (writeReg r x s).ram = s.ram := by
  cases r with
  | voice v r => cases r <;> rfl
  | glob g =>
    cases g with
    | irqAddr => simp only [writeReg, writeGlob, writeIrqAddr, irqCheck_ram]; rfl
    | control =>
      simp only [writeReg, writeGlob, writeControl]
      split
      · rw [irqCheck_ram]; rfl
      · rfl
    | xferFifo => exact absurd rfl hr
    | _ => rfl
  | curVol v side => rfl
  | unmapped h => rfl

/-- Every register write keeps the canonical form of sound RAM and its bound. -/
theorem writeReg_ramOk (r : LogReg) (x : Cell) {s : State} (h : s.ram.wf ∧ s.ram.below 0x40000) :
    (writeReg r x s).ram.wf ∧ (writeReg r x s).ram.below 0x40000 := by
  by_cases hr : r = .glob .xferFifo
  · subst hr
    show (xferPut x (s.setReg 0xD4 x)).ram.wf ∧ (xferPut x (s.setReg 0xD4 x)).ram.below 0x40000
    rw [xferPut_ram]
    exact ⟨Memory.wf_write h.1 _ _, Memory.below_write h.2 (s.xferIndex.isLt) x⟩
  · rw [writeReg_ram hr]
    exact h

/-- A register write falls the IRQ latch only if it is a CONTROL write with bit 6 clear (R447). -/
theorem writeReg_latch {r : LogReg} {x : Cell} {s : State} (h : s.irqLatch = true) (hf : (writeReg r x s).irqLatch = false) :
    r = .glob .control ∧ x.getLsbD 6 = false := by
  cases r with
  | voice v r => cases r <;> exact absurd (h.symm.trans hf) (by decide)
  | glob g =>
    cases g with
    | irqAddr =>
      simp only [writeReg, writeGlob, writeIrqAddr, irqCheck_irqLatch, setReg_irqLatch, h, Bool.true_or] at hf
      exact absurd hf (by decide)
    | control =>
      refine ⟨rfl, ?_⟩
      simp only [writeReg, writeGlob, writeControl] at hf
      cases hx : x.getLsbD 6 with
      | false => rfl
      | true =>
        rw [if_pos hx, irqCheck_irqLatch, setReg_irqLatch, h, Bool.true_or] at hf
        exact absurd hf (by decide)
    | xferFifo =>
      simp only [writeReg, writeGlob, writeXferFifo, xferPut_irqLatch, setReg_irqLatch, h, Bool.true_or] at hf
      exact absurd hf (by decide)
    | _ => exact absurd (h.symm.trans hf) (by decide)
  | curVol v side => exact absurd (h.symm.trans hf) (by decide)
  | unmapped h' => exact absurd (h.symm.trans hf) (by decide)

theorem irqEn_congr {s t : State} (h : t.regs = s.regs) : t.irqEn = s.irqEn := by simp only [State.irqEn, State.reg, h]

/-- With the watchdog off after a register write, the write has not set the latch (R444). -/
theorem writeReg_latchOff {r : LogReg} {x : Cell} {s : State} (hoff : (writeReg r x s).irqEn = false)
    (hl : (writeReg r x s).irqLatch = true) : s.irqLatch = true := by
  cases r with
  | voice v r => cases r <;> exact hl
  | glob g =>
    cases g with
    | irqAddr =>
      have he : (s.setReg 0xD2 x).irqEn = false := by
        rw [← hoff]; exact (irqEn_congr (irqCheck_memOnly _ _).regs).symm
      simp only [writeReg, writeGlob, writeIrqAddr, irqCheck_irqLatch, he, Bool.false_and, Bool.or_false] at hl
      exact hl
    | control =>
      simp only [writeReg, writeGlob, writeControl] at hl hoff
      cases hx : x.getLsbD 6 with
      | false => rw [if_neg (by rw [hx]; decide), irqClear_irqLatch] at hl; exact absurd hl (by decide)
      | true =>
        rw [if_pos hx, irqEn_congr (irqCheck_memOnly _ _).regs] at hoff
        have : (s.setReg 0xD5 x).irqEn = true := by rw [State.irqEn, setReg_reg_same]; exact hx
        rw [this] at hoff
        exact absurd hoff (by decide)
    | xferFifo =>
      have he : (s.setReg 0xD4 x).irqEn = false := by
        rw [← hoff]
        have := xferPut_frame x (s.setReg 0xD4 x)
        exact (irqEn_congr (by show (xferPut x (s.setReg 0xD4 x)).regs = _; rw [this])).symm
      simp only [writeReg, writeGlob, writeXferFifo, xferPut_irqLatch, he, Bool.false_and, Bool.or_false] at hl
      exact hl
    | _ => exact hl
  | curVol v side => exact hl
  | unmapped h' => exact hl

end Sys2Proof.Machine
end

