-- ==== Sys2Proof/Laws/Blind.lean ====
section
/-!
SUPPORT. The synthesis is blind to the ring and to the latch (R305, R449): for each unit, what happens when both are replaced in the state
it starts from. The ring stays the replaced one, the latch becomes the replaced one or a match that depends on neither.
-/

namespace Sys2Proof.Machine

/-- Replace the ring and the latch. -/
def State.tweak (s : State) (g : Ring) (b : Bool) : State := { s with ring := g, irqLatch := b }

@[simp] theorem tweak_voice (s : State) (g : Ring) (b : Bool) (v : VoiceId) : (s.tweak g b).voice v = s.voice v := rfl
@[simp] theorem tweak_reg (s : State) (g : Ring) (b : Bool) (h : CellId) : (s.tweak g b).reg h = s.reg h := rfl
@[simp] theorem tweak_tweak (s : State) (g g' : Ring) (b b' : Bool) : (s.tweak g b).tweak g' b' = s.tweak g' b' := rfl

/-- A change of state that is blind to the ring and the latch. -/
def Blind (f : State → State) : Prop := ∀ s, ∃ hit, ∀ g b, f (s.tweak g b) = (f s).tweak g (b || hit)

/-- A change of state with an answer, both blind to the ring and the latch. -/
def BlindAnswer {α : Type} (f : State → α × State) : Prop :=
  ∀ s, ∃ hit, ∀ g b, f (s.tweak g b) = ((f s).1, (f s).2.tweak g (b || hit))

variable {f k : State → State}

/-- A change that does not touch the latch at all. -/
theorem Blind.of_plain (h : ∀ s g b, f (s.tweak g b) = (f s).tweak g b) : Blind f := fun s =>
  ⟨false, fun g b => by rw [h, Bool.or_false]⟩

theorem Blind.comp (hk : Blind k) (hf : Blind f) : Blind fun s => k (f s) := fun s => by
  obtain ⟨x, hx⟩ := hf s
  obtain ⟨y, hy⟩ := hk (f s)
  exact ⟨x || y, fun g b => by
    show k (f (s.tweak g b)) = (k (f s)).tweak g _
    rw [hx, hy, Bool.or_assoc]⟩

theorem irqCheck_blind (i : Index) : Blind (irqCheck i) := fun s =>
  ⟨s.irqEn && i == s.irqIndex, fun g b => by rw [irqCheck_eq, irqCheck_eq]; rfl⟩

theorem memWrite_blind (i : Index) (x : Cell) : Blind (memWrite i x) := fun s =>
  ⟨s.irqEn && i == s.irqIndex, fun g b => by simp only [memWrite, irqCheck_eq]; rfl⟩

theorem loopAction_blind (v : VoiceId) : Blind (loopAction v) := .of_plain fun s g b => by
  cases h : hdrLoopEnd (s.voice v).hdr with
  | false => rw [loopAction_none h, loopAction_none (s := s.tweak g b) h]
  | true =>
    cases hr : hdrLoopRepeat (s.voice v).hdr with
    | true => rw [loopAction_repeat h hr, loopAction_repeat (s := s.tweak g b) h hr]; rfl
    | false => rw [loopAction_stop h hr, loopAction_stop (s := s.tweak g b) h hr]; rfl

theorem decoderCheck_blind (i : Index) : Blind (decoderCheck i) := fun s => by
  obtain ⟨x, hx⟩ := (irqCheck_blind (alignDown8 i)).comp (irqCheck_blind i) s
  have e : ∀ g b, (s.tweak g b).irqEn = s.irqEn := fun _ _ => rfl
  unfold decoderCheck
  cases h : s.irqEn with
  | false => exact ⟨false, fun g b => by rw [e, h, Bool.or_false]; rfl⟩
  | true => exact ⟨x, fun g b => by rw [e, h]; exact hx g b⟩

theorem fetchHeader_blind (v : VoiceId) : Blind (fetchHeader v) := .of_plain fun _ _ _ => rfl

theorem fetchData_blind (c : Config) (v : VoiceId) : Blind (fetchData c v) := .of_plain fun _ _ _ => rfl

theorem decoderStep_blind (c : Config) (v : VoiceId) : Blind (decoderStep c v) := fun s => by
  by_cases h1 : c.fifoDecodeBelow ≤ (s.voice v).fifo.length
  · obtain ⟨x, hx⟩ := decoderCheck_blind ((s.voice v).curIndex - 1) s
    exact ⟨x, fun g b => by rw [decoderStep_ahead h1, decoderStep_ahead (s := s.tweak g b) h1, tweak_voice, hx]⟩
  · by_cases h2 : atBlockStart (s.voice v) = true
    · obtain ⟨x, hx⟩ := loopAction_blind v s
      obtain ⟨y, hy⟩ := decoderCheck_blind ((loopAction v s).voice v).curIndex (loopAction v s)
      refine ⟨x || y, fun g b => ?_⟩
      rw [decoderStep_block h1 h2, decoderStep_block (s := s.tweak g b) h1 h2, hx, tweak_voice, hy, Bool.or_assoc]
      rfl
    · obtain ⟨x, hx⟩ := decoderCheck_blind (s.voice v).curIndex s
      refine ⟨x, fun g b => ?_⟩
      rw [decoderStep_inside h1 h2, decoderStep_inside (s := s.tweak g b) h1 h2, tweak_voice, hx]
      rfl

theorem voiceCapture_blind (v : VoiceId) (e : Int) : Blind (voiceCapture v e) := fun s => by
  obtain ⟨x, hx⟩ := memWrite_blind (0x400#18 ||| (0#9 ++ s.capIndex)) (u16 e) s
  obtain ⟨y, hy⟩ := memWrite_blind (0x600#18 ||| (0#9 ++ s.capIndex)) (u16 e) s
  have e1 : ∀ g b, (s.tweak g b).capIndex = s.capIndex := fun _ _ => rfl
  unfold voiceCapture
  by_cases h1 : v = 1
  · exact ⟨x, fun g b => by rw [if_pos h1, if_pos h1, e1, hx]⟩
  · by_cases h3 : v = 3
    · exact ⟨y, fun g b => by rw [if_neg h1, if_neg h1, if_pos h3, if_pos h3, e1, hy]⟩
    · exact ⟨false, fun g b => by rw [if_neg h1, if_neg h1, if_neg h3, if_neg h3, Bool.or_false]⟩

theorem sweepVoice_blind (v : VoiceId) : Blind (sweepVoice v) := .of_plain fun _ _ _ => rfl

theorem advanceVoice_blind (v : VoiceId) (fm : Int) : Blind (advanceVoice v fm) := .of_plain fun _ _ _ => rfl

theorem keyEvents_blind (c : Config) (v : VoiceId) : Blind (keyEvents c v) := .of_plain fun s g b => by
  have e1 : (s.tweak g b).keyOn = s.keyOn := rfl
  have e2 : (s.tweak g b).keyOff = s.keyOff := rfl
  unfold keyEvents
  rw [e1, e2]
  cases s.keyOn.getLsbD v.val <;> cases s.keyOff.getLsbD v.val <;> rfl

theorem disableMute_blind (v : VoiceId) : Blind (disableMute v) := .of_plain fun s g b => by
  have e : (s.tweak g b).spuEnable = s.spuEnable := rfl
  unfold disableMute
  rw [e]
  cases s.spuEnable <;> rfl

/-- A voice cycle, the sums of the mixer included. -/
theorem voiceCycle_blind (c : Config) (v : VoiceId) (s : State) (m : Mix) :
    ∃ hit, ∀ g b, voiceCycle c (s.tweak g b, m) v = ((voiceCycle c (s, m) v).1.tweak g (b || hit), (voiceCycle c (s, m) v).2) := by
  obtain ⟨x, hx⟩ := decoderStep_blind c v s
  let e := enveloped (rawSample c v (decoderStep c v s)) ((decoderStep c v s).voice v)
  obtain ⟨y, hy⟩ := ((disableMute_blind v).comp ((keyEvents_blind c v).comp ((advanceVoice_blind v m.fmPrev).comp
    ((sweepVoice_blind v).comp (voiceCapture_blind v e))))) (decoderStep c v s)
  have hr : ∀ (t : State) g b, rawSample c v (t.tweak g b) = rawSample c v t := fun _ _ _ => rfl
  have hv : ∀ (t : State) g b, (t.tweak g b).revEn = t.revEn := fun _ _ _ => rfl
  refine ⟨x || y, fun g b => ?_⟩
  unfold voiceCycle
  simp only [hx, hr, tweak_voice]
  simp only [e] at hy
  rw [hy, hv, Bool.or_assoc]

/-- Any sequence of voice cycles. -/
theorem cycles_blind (c : Config) (l : List VoiceId) (s : State) (m : Mix) :
    ∃ hit, ∀ g b, l.foldl (voiceCycle c) (s.tweak g b, m) =
      ((l.foldl (voiceCycle c) (s, m)).1.tweak g (b || hit), (l.foldl (voiceCycle c) (s, m)).2) := by
  induction l generalizing s m with
  | nil => exact ⟨false, fun g b => by rw [Bool.or_false]; rfl⟩
  | cons v l ih =>
    obtain ⟨x, hx⟩ := voiceCycle_blind c v s m
    obtain ⟨y, hy⟩ := ih (voiceCycle c (s, m) v).1 (voiceCycle c (s, m) v).2
    exact ⟨x || y, fun g b => by rw [List.foldl_cons, List.foldl_cons, hx, hy, Bool.or_assoc]⟩

theorem noiseStage2_tweak (c : Config) (s : State) (g : Ring) (b : Bool) :
    noiseStage2 c (s.tweak g b) = (noiseStage2 c s).tweak g b := by
  have e : (s.tweak g b).nCnt2 + BitVec.ofNat 8 (noiseInc2 (s.tweak g b).noiseShift (s.tweak g b).noiseStep) =
    s.nCnt2 + BitVec.ofNat 8 (noiseInc2 s.noiseShift s.noiseStep) := rfl
  unfold noiseStage2
  simp only [e]
  cases (s.nCnt2 + BitVec.ofNat 8 (noiseInc2 s.noiseShift s.noiseStep)).getLsbD 3 <;> rfl

theorem noiseCycle_blind (c : Config) : Blind (noiseCycle c) := .of_plain fun s g b => by
  have e : (s.tweak g b).nCnt1 + BitVec.ofNat 16 (noiseInc1 (s.tweak g b).noiseShift) =
    s.nCnt1 + BitVec.ofNat 16 (noiseInc1 s.noiseShift) := rfl
  have h := noiseStage2_tweak c { s with nCnt1 := 0#16 } g b
  unfold noiseCycle
  simp only [e]
  cases (s.nCnt1 + BitVec.ofNat 16 (noiseInc1 s.noiseShift)).getLsbD 15 with
  | true => exact h
  | false => rfl

theorem cdCapture_blind : Blind cdCapture := fun s => by
  unfold cdCapture
  obtain ⟨x, hx⟩ := ((memWrite_blind (0x200#18 ||| (0#9 ++ s.capIndex)) s.cdR).comp (memWrite_blind (0#9 ++ s.capIndex) s.cdL)) s
  exact ⟨x, fun g b => hx g b⟩

theorem rvRead_blind (off : Int) : BlindAnswer (rvRead off) := fun s => by
  obtain ⟨x, hx⟩ := irqCheck_blind (s.rvAddr off) s
  exact ⟨x, fun g b => by
    show (_, irqCheck (s.rvAddr off) (s.tweak g b)) = _
    rw [hx]; rfl⟩

theorem rvWrite_blind (c : Config) (off x : Int) : Blind (rvWrite c off x) := fun s => by
  obtain ⟨y, hy⟩ := memWrite_blind (s.rvAddr off) (u16 (sat16 x)) s
  have e1 : ∀ g b, (s.tweak g b).rvbWriteEn = s.rvbWriteEn := fun _ _ => rfl
  have e2 : ∀ g b, (s.tweak g b).rvAddr off = s.rvAddr off := fun _ _ => rfl
  unfold rvWrite
  by_cases h : (s.rvbWriteEn || c.rvbWriteAlways) = true
  · exact ⟨y, fun g b => by rw [e1, e2, if_pos h, if_pos h, hy]⟩
  · exact ⟨false, fun g b => by rw [e1, if_neg h, if_neg h, Bool.or_false]⟩

@[simp] theorem tweak_rvOffset (s : State) (g : Ring) (b : Bool) (h : CellId) : (s.tweak g b).rvOffset h = s.rvOffset h := rfl
@[simp] theorem tweak_rvGain (s : State) (g : Ring) (b : Bool) (h : CellId) : (s.tweak g b).rvGain h = s.rvGain h := rfl

theorem reflect_blind (c : Config) (d m : CellId) (x : Int) : Blind (reflect c d m x) := fun s => by
  obtain ⟨a, ha⟩ := rvRead_blind (s.rvOffset d) s
  obtain ⟨o, ho⟩ := rvRead_blind (s.rvOffset m - 1) (rvRead (s.rvOffset d) s).2
  have e : reflect c d m x s = rvWrite c (s.rvOffset m)
    (sat16 ((rvRead (s.rvOffset m - 1) (rvRead (s.rvOffset d) s).2).1 +
      mul15 (sat16 (x + mul15 (rvRead (s.rvOffset d) s).1 (s.rvGain 0xE7)) -
        (rvRead (s.rvOffset m - 1) (rvRead (s.rvOffset d) s).2).1) (s.rvGain 0xE2)))
    (rvRead (s.rvOffset m - 1) (rvRead (s.rvOffset d) s).2).2 := rfl
  obtain ⟨w, hw⟩ := rvWrite_blind c (s.rvOffset m)
    (sat16 ((rvRead (s.rvOffset m - 1) (rvRead (s.rvOffset d) s).2).1 +
      mul15 (sat16 (x + mul15 (rvRead (s.rvOffset d) s).1 (s.rvGain 0xE7)) -
        (rvRead (s.rvOffset m - 1) (rvRead (s.rvOffset d) s).2).1) (s.rvGain 0xE2)))
    (rvRead (s.rvOffset m - 1) (rvRead (s.rvOffset d) s).2).2
  refine ⟨a || (o || w), fun g b => ?_⟩
  rw [e, ← Bool.or_assoc, ← Bool.or_assoc, ← hw]
  unfold reflect
  simp only [tweak_rvOffset, tweak_rvGain, ha, ho]

theorem comb_blind (side : Side) : BlindAnswer (comb side) := fun s => by
  obtain ⟨a1, h1⟩ := rvRead_blind (s.rvOffset side.mComb1) s
  obtain ⟨a2, h2⟩ := rvRead_blind (s.rvOffset side.mComb2) (rvRead (s.rvOffset side.mComb1) s).2
  obtain ⟨a3, h3⟩ := rvRead_blind (s.rvOffset side.mComb3)
    (rvRead (s.rvOffset side.mComb2) (rvRead (s.rvOffset side.mComb1) s).2).2
  obtain ⟨a4, h4⟩ := rvRead_blind (s.rvOffset side.mComb4)
    (rvRead (s.rvOffset side.mComb3) (rvRead (s.rvOffset side.mComb2) (rvRead (s.rvOffset side.mComb1) s).2).2).2
  refine ⟨((a1 || a2) || a3) || a4, fun g b => ?_⟩
  unfold comb
  simp only [tweak_rvOffset, tweak_rvGain, h1, h2, h3, h4, Bool.or_assoc]

theorem allPass_blind (c : Config) (m d k : CellId) (x : Int) : BlindAnswer (allPass c m d k x) := fun s => by
  obtain ⟨a, h1⟩ := rvRead_blind (s.rvOffset m - s.rvOffset d) s
  obtain ⟨w, h2⟩ := rvWrite_blind c (s.rvOffset m)
    (sat16 (x - mul15 (rvRead (s.rvOffset m - s.rvOffset d) s).1 (s.rvGain k))) (rvRead (s.rvOffset m - s.rvOffset d) s).2
  refine ⟨a || w, fun g b => ?_⟩
  unfold allPass
  simp only [tweak_rvOffset, tweak_rvGain, h1, h2, Bool.or_assoc]

theorem reverbSide_blind (c : Config) (side : Side) (x : Int) : BlindAnswer (reverbSide c side x) := fun s => by
  obtain ⟨a1, h1⟩ := reflect_blind c side.dSame side.mSame (mul15 x (s.rvGain side.vIn)) s
  obtain ⟨a2, h2⟩ := reflect_blind c side.dDiff side.mDiff (mul15 x (s.rvGain side.vIn))
    (reflect c side.dSame side.mSame (mul15 x (s.rvGain side.vIn)) s)
  obtain ⟨a3, h3⟩ := comb_blind side (reflect c side.dDiff side.mDiff (mul15 x (s.rvGain side.vIn))
    (reflect c side.dSame side.mSame (mul15 x (s.rvGain side.vIn)) s))
  unfold reverbSide
  simp only [tweak_rvGain, h1, h2, h3]
  generalize comb side (reflect c side.dDiff side.mDiff (mul15 x (s.rvGain side.vIn))
    (reflect c side.dSame side.mSame (mul15 x (s.rvGain side.vIn)) s)) = q
  obtain ⟨a4, h4⟩ := allPass_blind c side.mApf1 0xE0 0xE8 q.1 q.2
  obtain ⟨a5, h5⟩ := allPass_blind c side.mApf2 0xE1 0xE9 (allPass c side.mApf1 0xE0 0xE8 q.1 q.2).1
    (allPass c side.mApf1 0xE0 0xE8 q.1 q.2).2
  refine ⟨(((a1 || a2) || a3) || a4) || a5, fun g b => ?_⟩
  simp only [h4, h5, Bool.or_assoc]

theorem reverbCycle_blind (c : Config) (inL inR : Int) : BlindAnswer (reverbCycle c inL inR) := fun s => by
  obtain ⟨a, h⟩ := reverbSide_blind c s.rvSide (downsampled c s.rvSide (downsampleIn inL inR s)) (downsampleIn inL inR s)
  have e1 : ∀ g b, (s.tweak g b).rvSide = s.rvSide := fun _ _ => rfl
  have e2 : ∀ g b, downsampleIn inL inR (s.tweak g b) = (downsampleIn inL inR s).tweak g b := fun _ _ => rfl
  have e3 : ∀ (side : Side) (t : State) g b, downsampled c side (t.tweak g b) = downsampled c side t := fun _ _ _ _ => rfl
  refine ⟨a, fun g b => ?_⟩
  unfold reverbCycle
  simp only [e1, e2, e3, h]
  generalize reverbSide c s.rvSide (downsampled c s.rvSide (downsampleIn inL inR s)) (downsampleIn inL inR s) = q
  cases s.rvSide <;> rfl

/-- The stages of a tick before the output stage. -/
theorem tickWet_blind (c : Config) (s : State) :
    ∃ hit, ∀ g b, tickWet c (s.tweak g b) = ((tickWet c s).1, (tickWet c s).2.tweak g (b || hit)) ∧
      tickMix c (s.tweak g b) = tickMix c s := by
  obtain ⟨x, hx⟩ := cycles_blind c voiceIds s Mix.zero
  obtain ⟨y, hy⟩ := (cdCapture_blind.comp (noiseCycle_blind c)) (voicePass c s).1
  obtain ⟨z, hz⟩ := reverbCycle_blind c (sat16 (tickMix c s).lrev) (sat16 (tickMix c s).rrev) (tickDry c s)
  have hp : ∀ g b, voicePass c (s.tweak g b) = ((voicePass c s).1.tweak g (b || x), (voicePass c s).2) := hx
  have hd : ∀ g b, tickDry c (s.tweak g b) = (tickDry c s).tweak g ((b || x) || y) := fun g b => by
    unfold tickDry
    rw [hp]
    exact hy g (b || x)
  have hm : ∀ g b, tickMix c (s.tweak g b) = tickMix c s := fun g b => by
    have e1 : ∀ (t : State) g b m, muteMix (t.tweak g b) m = muteMix t m := fun _ _ _ _ => rfl
    have e2 : ∀ (t : State) g b m, cdBlend (t.tweak g b) m = cdBlend t m := fun _ _ _ _ => rfl
    unfold tickMix
    rw [hd, hp, e1, e2]
  refine ⟨(x || y) || z, fun g b => ⟨?_, hm g b⟩⟩
  have e : tickWet c (s.tweak g b) =
    reverbCycle c (sat16 (tickMix c (s.tweak g b)).lrev) (sat16 (tickMix c (s.tweak g b)).rrev) (tickDry c (s.tweak g b)) := rfl
  rw [e, hm, hd, hz, Bool.or_assoc, Bool.or_assoc, Bool.or_assoc]
  rfl

end Sys2Proof.Machine
end

