-- ==== Sys2Proof/Laws/Keeps.lean ====
section
/-!
SUPPORT. One induction for every invariant: a property of states that the few state changes of the commands keep is kept by every
command and every step.
-/

namespace Sys2Proof.Machine

/-- The state changes that the commands are made of, each keeping a property of states. -/
structure Keeps (I : State → Prop) : Prop where
  respond : ∀ (s : State) (r : Response), I s → I (s.respond r)
  writeReg : ∀ (r : LogReg) (x : Cell) (s : State), I s → I (writeReg r x s)
  push : ∀ (l r : Sample) (s : State), I s → I { s with ring := (s.ring.push std l r).2 }
  pop : ∀ (n : Nat) (s : State), I s → I { s with ring := (s.ring.pop n).2 }
  ringcfg : ∀ (n : Nat) (p : RingPolicy) (latency : Nat) (overlay : Bool) (s : State),
    I s → I { s with ring := .create n p latency overlay }
  xferPut : ∀ (x : Cell) (s : State), I s → I (xferPut x s)
  bumpXfer : ∀ s : State, I s → I (bumpXfer s)
  irqCheck : ∀ (i : Index) (s : State), I s → I (irqCheck i s)
  tick : ∀ s : State, I s → I (tick std s)
  carry : ∀ (n : Nat) (s : State), n < std.clockDiv → I s → I { s with resyncAcc := n }
  cdin : ∀ (l r : Sample) (s : State), I s → I { s with cdL := l, cdR := r }
  reset : ∀ s : State, I { State.reset with port := s.port }
  taken : ∀ (s : State) (rest : List CmdWord), I s → I (s.taken rest)

variable {I : State → Prop}

theorem Keeps.ticks (k : Keeps I) (n : Nat) (s : State) (h : I s) : I (ticks std n s) := by
  induction n generalizing s with
  | zero => exact h
  | succ n ih => exact ih _ (k.tick s h)

/-- What every state change keeps, every command keeps. -/
theorem Keeps.exec (k : Keeps I) {i : Instr} {s t : State} (h : exec i s = .next t) (hs : I s) : I t := by
  cases instrForm i with
  | reads r => rw [exec_readRow] at h; exact Host.Outcome.next.inj h ▸ k.respond _ _ hs
  | writes r x => rw [exec_writeRow] at h; exact Host.Outcome.next.inj h ▸ k.writeReg _ _ _ hs
  | nop => exact Host.Outcome.next.inj h ▸ hs
  | rd8 => exact Host.Outcome.next.inj h ▸ k.respond _ _ hs
  | rd16 => exact Host.Outcome.next.inj h ▸ k.respond _ _ hs
  | rd32 => exact Host.Outcome.next.inj h ▸ k.respond _ _ hs
  | push l r => exact Host.Outcome.next.inj h ▸ k.respond _ _ (k.push l r s hs)
  | wr8 boff b =>
    obtain rfl := Host.Outcome.next.inj h
    split
    · exact hs
    · exact k.writeReg _ _ _ hs
  | wr16 => exact Host.Outcome.next.inj h ▸ k.writeReg _ _ _ hs
  | wr32 => exact Host.Outcome.next.inj h ▸ k.writeReg _ _ _ (k.writeReg _ _ _ hs)
  | dmast => exact Host.Outcome.next.inj h ▸ k.xferPut _ _ (k.xferPut _ _ hs)
  | dmald => exact Host.Outcome.next.inj h ▸ k.respond _ _ (k.irqCheck _ _ (k.bumpXfer _ (k.bumpXfer _ hs)))
  | tick => exact Host.Outcome.next.inj h ▸ k.tick _ hs
  | resync n =>
    exact Host.Outcome.next.inj h ▸ k.respond _ _ (k.ticks _ _ (k.carry _ _ (Nat.mod_lt _ (by decide)) hs))
  | cdin l r => exact Host.Outcome.next.inj h ▸ k.cdin l r s hs
  | pop n => exact Host.Outcome.next.inj h ▸ k.respond _ _ (k.pop n.toNat s hs)
  | ringcfg => exact Host.Outcome.next.inj h ▸ k.ringcfg _ _ _ _ s hs
  | reset => exact Host.Outcome.next.inj h ▸ k.reset s

/-- What every state change keeps, every step keeps. -/
theorem Keeps.step (k : Keeps I) {s t : State} (h : step s = .next t) (hs : I s) : I t := by
  unfold Machine.step at h
  split at h
  · exact Host.Outcome.next.inj h ▸ hs
  · exact k.exec h (k.taken _ _ hs)

end Sys2Proof.Machine
end

