-- ==== Sys2Proof/Laws/PerInstr.lean ====
section
/-!
SUPPORT. The round trip of one instruction, constructor by constructor: a well-formed instruction's word decodes to the instruction, RD16
and WR16 to the row that refines them (R120, R130).
-/

namespace Sys2Proof.Laws.RoundTrip

/-- Decoding the word of a well-formed instruction gives the instruction that its words stand for. -/
def Statement (i : Instr) : Prop := i.wellFormed = true → decode (encode i) = i.resolve

/-- A row of a mapped register. -/
theorem read_row (r : LogReg) (hu : ∀ h, r ≠ .unmapped h) {i : Instr} (he : encode i = encodeRead r) (hr : readRow r = i.resolve) :
    Statement i := fun _ => by
  rw [he, decode_encodeRead r fun h e => absurd e (hu h), hr]

theorem write_row (r : LogReg) (val : Cell) (hu : ∀ h, r ≠ .unmapped h) {i : Instr} (he : encode i = encodeWrite r val)
    (hr : writeRow r val = i.resolve) : Statement i := fun _ => by
  rw [he, decode_encodeWrite r val fun h e => absurd e (hu h), hr]

theorem nop : Statement .nop := fun _ => by
  show decode (pack _ _ _) = _
  rw [decode_pack]
  rfl

theorem rd8 (boff : ByteOff) : Statement (.rd8 boff) := fun _ => by
  show decode (pack _ _ _) = _
  rw [decode_pack]
  rfl

theorem rd16 (boff : ByteOff) : Statement (.rd16 boff) := fun _ => by
  show decode (pack _ _ _) = _
  rw [decode_pack]
  rfl

theorem rd32 (boff : ByteOff) : Statement (.rd32 boff) := fun _ => by
  show decode (pack _ _ _) = _
  rw [decode_pack]
  rfl

theorem push (l r : Sample) : Statement (.push l r) := fun _ => by
  show decode (pack _ _ (r ++ l)) = _
  rw [decode_pack]
  show Instr.push ((r ++ l).extractLsb' 0 16) ((r ++ l).extractLsb' 16 16) = _
  rw [extract_low, extract_high]
  rfl

theorem wr8 (boff : ByteOff) (b : BitVec 8) : Statement (.wr8 boff b) := fun _ => by
  show decode (pack _ _ _) = _
  rw [decode_pack]
  show Instr.wr8 boff ((0#24 ++ b).extractLsb' 0 8) = _
  rw [extract_low]
  rfl

theorem wr16 (boff : ByteOff) (val : Cell) : Statement (.wr16 boff val) := fun _ => by
  show decode (pack _ _ _) = _
  rw [decode_pack]
  show writeRow _ ((0#16 ++ val).extractLsb' 0 16) = _
  rw [extract_low]
  rfl

theorem wr32 (boff : ByteOff) (w : BitVec 32) : Statement (.wr32 boff w) := fun _ => by
  show decode (pack _ _ _) = _
  rw [decode_pack]
  rfl

theorem dmast (w : BitVec 32) : Statement (.dmast w) := fun _ => by
  show decode (pack _ _ _) = _
  rw [decode_pack]
  rfl

theorem dmald : Statement .dmald := fun _ => by
  show decode (pack _ _ _) = _
  rw [decode_pack]
  rfl

theorem tick : Statement .tick := fun _ => by
  show decode (pack _ _ _) = _
  rw [decode_pack]
  rfl

theorem resync (cycles : BitVec 32) : Statement (.resync cycles) := fun _ => by
  show decode (pack _ _ _) = _
  rw [decode_pack]
  rfl

theorem cdin (l r : Sample) : Statement (.cdin l r) := fun _ => by
  show decode (pack _ _ (r ++ l)) = _
  rw [decode_pack]
  show Instr.cdin ((r ++ l).extractLsb' 0 16) ((r ++ l).extractLsb' 16 16) = _
  rw [extract_low, extract_high]
  rfl

theorem pop (maxPairs : BitVec 32) : Statement (.pop maxPairs) := fun _ => by
  show decode (pack _ _ _) = _
  rw [decode_pack]
  rfl

theorem ringcfg (size : BitVec 20) (policy : RingPolicy) (overlay : Bool) (latency : BitVec 12) : Statement (.ringcfg size policy overlay latency) :=
  fun _ => by
  show decode (pack _ _ _) = _
  rw [decode_pack]
  show Instr.ringcfg ((0#9 ++ BitVec.ofBool overlay ++ policyCode policy ++ size).extractLsb' 0 20)
    (policyOfCode ((0#9 ++ BitVec.ofBool overlay ++ policyCode policy ++ size).extractLsb' 20 2))
    ((0#9 ++ BitVec.ofBool overlay ++ policyCode policy ++ size).getLsbD 22) latency = _
  rw [ringData_size, ringData_policy, ringData_overlay, policyOfCode_policyCode]
  rfl

theorem reset : Statement .reset := fun _ => by
  show decode (pack _ _ _) = _
  rw [decode_pack]
  rfl

theorem rd16VVolL (v : VoiceId) : Statement (.rd16VVolL v) := read_row (.voice v .volL) nofun rfl rfl

theorem rd16VVolR (v : VoiceId) : Statement (.rd16VVolR v) := read_row (.voice v .volR) nofun rfl rfl

theorem rd16VPitch (v : VoiceId) : Statement (.rd16VPitch v) := read_row (.voice v .pitch) nofun rfl rfl

theorem rd16VStart (v : VoiceId) : Statement (.rd16VStart v) := read_row (.voice v .start) nofun rfl rfl

theorem rd16VAdsrLo (v : VoiceId) : Statement (.rd16VAdsrLo v) := read_row (.voice v .adsrLo) nofun rfl rfl

theorem rd16VAdsrHi (v : VoiceId) : Statement (.rd16VAdsrHi v) := read_row (.voice v .adsrHi) nofun rfl rfl

theorem rd16VLevel (v : VoiceId) : Statement (.rd16VLevel v) := read_row (.voice v .level) nofun rfl rfl

theorem rd16VRepeat (v : VoiceId) : Statement (.rd16VRepeat v) := read_row (.voice v .repeatIx) nofun rfl rfl

theorem rd16MainVolL : Statement .rd16MainVolL := read_row (.glob .mainVolL) nofun rfl rfl

theorem rd16MainVolR : Statement .rd16MainVolR := read_row (.glob .mainVolR) nofun rfl rfl

theorem rd16RvbOutL : Statement .rd16RvbOutL := read_row (.glob .rvbOutL) nofun rfl rfl

theorem rd16RvbOutR : Statement .rd16RvbOutR := read_row (.glob .rvbOutR) nofun rfl rfl

theorem rd16KonLo : Statement .rd16KonLo := read_row (.glob .konLo) nofun rfl rfl

theorem rd16KonHi : Statement .rd16KonHi := read_row (.glob .konHi) nofun rfl rfl

theorem rd16KoffLo : Statement .rd16KoffLo := read_row (.glob .koffLo) nofun rfl rfl

theorem rd16KoffHi : Statement .rd16KoffHi := read_row (.glob .koffHi) nofun rfl rfl

theorem rd16FmLo : Statement .rd16FmLo := read_row (.glob .fmLo) nofun rfl rfl

theorem rd16FmHi : Statement .rd16FmHi := read_row (.glob .fmHi) nofun rfl rfl

theorem rd16NoiseLo : Statement .rd16NoiseLo := read_row (.glob .noiseLo) nofun rfl rfl

theorem rd16NoiseHi : Statement .rd16NoiseHi := read_row (.glob .noiseHi) nofun rfl rfl

theorem rd16RvbEnLo : Statement .rd16RvbEnLo := read_row (.glob .rvbEnLo) nofun rfl rfl

theorem rd16RvbEnHi : Statement .rd16RvbEnHi := read_row (.glob .rvbEnHi) nofun rfl rfl

theorem rd16EndxLo : Statement .rd16EndxLo := read_row (.glob .endxLo) nofun rfl rfl

theorem rd16EndxHi : Statement .rd16EndxHi := read_row (.glob .endxHi) nofun rfl rfl

theorem rd16CellD0 : Statement .rd16CellD0 := read_row (.glob .cellD0) nofun rfl rfl

theorem rd16RvbBase : Statement .rd16RvbBase := read_row (.glob .rvbBase) nofun rfl rfl

theorem rd16IrqAddr : Statement .rd16IrqAddr := read_row (.glob .irqAddr) nofun rfl rfl

theorem rd16XferAddr : Statement .rd16XferAddr := read_row (.glob .xferAddr) nofun rfl rfl

theorem rd16XferFifo : Statement .rd16XferFifo := read_row (.glob .xferFifo) nofun rfl rfl

theorem rd16Control : Statement .rd16Control := read_row (.glob .control) nofun rfl rfl

theorem rd16XferCtrl : Statement .rd16XferCtrl := read_row (.glob .xferCtrl) nofun rfl rfl

theorem rd16Status : Statement .rd16Status := read_row (.glob .status) nofun rfl rfl

theorem rd16CdVolL : Statement .rd16CdVolL := read_row (.glob .cdVolL) nofun rfl rfl

theorem rd16CdVolR : Statement .rd16CdVolR := read_row (.glob .cdVolR) nofun rfl rfl

theorem rd16CellDA : Statement .rd16CellDA := read_row (.glob .cellDA) nofun rfl rfl

theorem rd16CellDB : Statement .rd16CellDB := read_row (.glob .cellDB) nofun rfl rfl

theorem rd16CellDC : Statement .rd16CellDC := read_row (.glob .cellDC) nofun rfl rfl

theorem rd16CellDD : Statement .rd16CellDD := read_row (.glob .cellDD) nofun rfl rfl

theorem rd16CellDE : Statement .rd16CellDE := read_row (.glob .cellDE) nofun rfl rfl

theorem rd16CellDF : Statement .rd16CellDF := read_row (.glob .cellDF) nofun rfl rfl

theorem rd16RvbDAPF1 : Statement .rd16RvbDAPF1 := read_row (.glob .rvbDAPF1) nofun rfl rfl

theorem rd16RvbDAPF2 : Statement .rd16RvbDAPF2 := read_row (.glob .rvbDAPF2) nofun rfl rfl

theorem rd16RvbVIIR : Statement .rd16RvbVIIR := read_row (.glob .rvbVIIR) nofun rfl rfl

theorem rd16RvbVCOMB1 : Statement .rd16RvbVCOMB1 := read_row (.glob .rvbVCOMB1) nofun rfl rfl

theorem rd16RvbVCOMB2 : Statement .rd16RvbVCOMB2 := read_row (.glob .rvbVCOMB2) nofun rfl rfl

theorem rd16RvbVCOMB3 : Statement .rd16RvbVCOMB3 := read_row (.glob .rvbVCOMB3) nofun rfl rfl

theorem rd16RvbVCOMB4 : Statement .rd16RvbVCOMB4 := read_row (.glob .rvbVCOMB4) nofun rfl rfl

theorem rd16RvbVWALL : Statement .rd16RvbVWALL := read_row (.glob .rvbVWALL) nofun rfl rfl

theorem rd16RvbVAPF1 : Statement .rd16RvbVAPF1 := read_row (.glob .rvbVAPF1) nofun rfl rfl

theorem rd16RvbVAPF2 : Statement .rd16RvbVAPF2 := read_row (.glob .rvbVAPF2) nofun rfl rfl

theorem rd16RvbMLSAME : Statement .rd16RvbMLSAME := read_row (.glob .rvbMLSAME) nofun rfl rfl

theorem rd16RvbMRSAME : Statement .rd16RvbMRSAME := read_row (.glob .rvbMRSAME) nofun rfl rfl

theorem rd16RvbMLCOMB1 : Statement .rd16RvbMLCOMB1 := read_row (.glob .rvbMLCOMB1) nofun rfl rfl

theorem rd16RvbMRCOMB1 : Statement .rd16RvbMRCOMB1 := read_row (.glob .rvbMRCOMB1) nofun rfl rfl

theorem rd16RvbMLCOMB2 : Statement .rd16RvbMLCOMB2 := read_row (.glob .rvbMLCOMB2) nofun rfl rfl

theorem rd16RvbMRCOMB2 : Statement .rd16RvbMRCOMB2 := read_row (.glob .rvbMRCOMB2) nofun rfl rfl

theorem rd16RvbDLSAME : Statement .rd16RvbDLSAME := read_row (.glob .rvbDLSAME) nofun rfl rfl

theorem rd16RvbDRSAME : Statement .rd16RvbDRSAME := read_row (.glob .rvbDRSAME) nofun rfl rfl

theorem rd16RvbMLDIFF : Statement .rd16RvbMLDIFF := read_row (.glob .rvbMLDIFF) nofun rfl rfl

theorem rd16RvbMRDIFF : Statement .rd16RvbMRDIFF := read_row (.glob .rvbMRDIFF) nofun rfl rfl

theorem rd16RvbMLCOMB3 : Statement .rd16RvbMLCOMB3 := read_row (.glob .rvbMLCOMB3) nofun rfl rfl

theorem rd16RvbMRCOMB3 : Statement .rd16RvbMRCOMB3 := read_row (.glob .rvbMRCOMB3) nofun rfl rfl

theorem rd16RvbMLCOMB4 : Statement .rd16RvbMLCOMB4 := read_row (.glob .rvbMLCOMB4) nofun rfl rfl

theorem rd16RvbMRCOMB4 : Statement .rd16RvbMRCOMB4 := read_row (.glob .rvbMRCOMB4) nofun rfl rfl

theorem rd16RvbDLDIFF : Statement .rd16RvbDLDIFF := read_row (.glob .rvbDLDIFF) nofun rfl rfl

theorem rd16RvbDRDIFF : Statement .rd16RvbDRDIFF := read_row (.glob .rvbDRDIFF) nofun rfl rfl

theorem rd16RvbMLAPF1 : Statement .rd16RvbMLAPF1 := read_row (.glob .rvbMLAPF1) nofun rfl rfl

theorem rd16RvbMRAPF1 : Statement .rd16RvbMRAPF1 := read_row (.glob .rvbMRAPF1) nofun rfl rfl

theorem rd16RvbMLAPF2 : Statement .rd16RvbMLAPF2 := read_row (.glob .rvbMLAPF2) nofun rfl rfl

theorem rd16RvbMRAPF2 : Statement .rd16RvbMRAPF2 := read_row (.glob .rvbMRAPF2) nofun rfl rfl

theorem rd16RvbVLIN : Statement .rd16RvbVLIN := read_row (.glob .rvbVLIN) nofun rfl rfl

theorem rd16RvbVRIN : Statement .rd16RvbVRIN := read_row (.glob .rvbVRIN) nofun rfl rfl

theorem rd16VCurvolL (v : VoiceId) : Statement (.rd16VCurvolL v) := read_row (.curVol v .left) nofun rfl rfl

theorem rd16VCurvolR (v : VoiceId) : Statement (.rd16VCurvolR v) := read_row (.curVol v .right) nofun rfl rfl

theorem rd16Unmapped (h : HalfOff) : Statement (.rd16Unmapped h) := fun hw =>
  decode_encodeRead (.unmapped h) fun _ e => by cases e; exact wellFormed_unmapped hw

theorem wr16VVolL (v : VoiceId) (val : Cell) : Statement (.wr16VVolL v val) := write_row (.voice v .volL) val nofun rfl rfl

theorem wr16VVolR (v : VoiceId) (val : Cell) : Statement (.wr16VVolR v val) := write_row (.voice v .volR) val nofun rfl rfl

theorem wr16VPitch (v : VoiceId) (val : Cell) : Statement (.wr16VPitch v val) := write_row (.voice v .pitch) val nofun rfl rfl

theorem wr16VStart (v : VoiceId) (val : Cell) : Statement (.wr16VStart v val) := write_row (.voice v .start) val nofun rfl rfl

theorem wr16VAdsrLo (v : VoiceId) (val : Cell) : Statement (.wr16VAdsrLo v val) := write_row (.voice v .adsrLo) val nofun rfl rfl

theorem wr16VAdsrHi (v : VoiceId) (val : Cell) : Statement (.wr16VAdsrHi v val) := write_row (.voice v .adsrHi) val nofun rfl rfl

theorem wr16VLevel (v : VoiceId) (val : Cell) : Statement (.wr16VLevel v val) := write_row (.voice v .level) val nofun rfl rfl

theorem wr16VRepeat (v : VoiceId) (val : Cell) : Statement (.wr16VRepeat v val) := write_row (.voice v .repeatIx) val nofun rfl rfl

theorem wr16MainVolL (val : Cell) : Statement (.wr16MainVolL val) := write_row (.glob .mainVolL) val nofun rfl rfl

theorem wr16MainVolR (val : Cell) : Statement (.wr16MainVolR val) := write_row (.glob .mainVolR) val nofun rfl rfl

theorem wr16RvbOutL (val : Cell) : Statement (.wr16RvbOutL val) := write_row (.glob .rvbOutL) val nofun rfl rfl

theorem wr16RvbOutR (val : Cell) : Statement (.wr16RvbOutR val) := write_row (.glob .rvbOutR) val nofun rfl rfl

theorem wr16KonLo (val : Cell) : Statement (.wr16KonLo val) := write_row (.glob .konLo) val nofun rfl rfl

theorem wr16KonHi (val : Cell) : Statement (.wr16KonHi val) := write_row (.glob .konHi) val nofun rfl rfl

theorem wr16KoffLo (val : Cell) : Statement (.wr16KoffLo val) := write_row (.glob .koffLo) val nofun rfl rfl

theorem wr16KoffHi (val : Cell) : Statement (.wr16KoffHi val) := write_row (.glob .koffHi) val nofun rfl rfl

theorem wr16FmLo (val : Cell) : Statement (.wr16FmLo val) := write_row (.glob .fmLo) val nofun rfl rfl

theorem wr16FmHi (val : Cell) : Statement (.wr16FmHi val) := write_row (.glob .fmHi) val nofun rfl rfl

theorem wr16NoiseLo (val : Cell) : Statement (.wr16NoiseLo val) := write_row (.glob .noiseLo) val nofun rfl rfl

theorem wr16NoiseHi (val : Cell) : Statement (.wr16NoiseHi val) := write_row (.glob .noiseHi) val nofun rfl rfl

theorem wr16RvbEnLo (val : Cell) : Statement (.wr16RvbEnLo val) := write_row (.glob .rvbEnLo) val nofun rfl rfl

theorem wr16RvbEnHi (val : Cell) : Statement (.wr16RvbEnHi val) := write_row (.glob .rvbEnHi) val nofun rfl rfl

theorem wr16EndxLo (val : Cell) : Statement (.wr16EndxLo val) := write_row (.glob .endxLo) val nofun rfl rfl

theorem wr16EndxHi (val : Cell) : Statement (.wr16EndxHi val) := write_row (.glob .endxHi) val nofun rfl rfl

theorem wr16CellD0 (val : Cell) : Statement (.wr16CellD0 val) := write_row (.glob .cellD0) val nofun rfl rfl

theorem wr16RvbBase (val : Cell) : Statement (.wr16RvbBase val) := write_row (.glob .rvbBase) val nofun rfl rfl

theorem wr16IrqAddr (val : Cell) : Statement (.wr16IrqAddr val) := write_row (.glob .irqAddr) val nofun rfl rfl

theorem wr16XferAddr (val : Cell) : Statement (.wr16XferAddr val) := write_row (.glob .xferAddr) val nofun rfl rfl

theorem wr16XferFifo (val : Cell) : Statement (.wr16XferFifo val) := write_row (.glob .xferFifo) val nofun rfl rfl

theorem wr16Control (val : Cell) : Statement (.wr16Control val) := write_row (.glob .control) val nofun rfl rfl

theorem wr16XferCtrl (val : Cell) : Statement (.wr16XferCtrl val) := write_row (.glob .xferCtrl) val nofun rfl rfl

theorem wr16Status (val : Cell) : Statement (.wr16Status val) := write_row (.glob .status) val nofun rfl rfl

theorem wr16CdVolL (val : Cell) : Statement (.wr16CdVolL val) := write_row (.glob .cdVolL) val nofun rfl rfl

theorem wr16CdVolR (val : Cell) : Statement (.wr16CdVolR val) := write_row (.glob .cdVolR) val nofun rfl rfl

theorem wr16CellDA (val : Cell) : Statement (.wr16CellDA val) := write_row (.glob .cellDA) val nofun rfl rfl

theorem wr16CellDB (val : Cell) : Statement (.wr16CellDB val) := write_row (.glob .cellDB) val nofun rfl rfl

theorem wr16CellDC (val : Cell) : Statement (.wr16CellDC val) := write_row (.glob .cellDC) val nofun rfl rfl

theorem wr16CellDD (val : Cell) : Statement (.wr16CellDD val) := write_row (.glob .cellDD) val nofun rfl rfl

theorem wr16CellDE (val : Cell) : Statement (.wr16CellDE val) := write_row (.glob .cellDE) val nofun rfl rfl

theorem wr16CellDF (val : Cell) : Statement (.wr16CellDF val) := write_row (.glob .cellDF) val nofun rfl rfl

theorem wr16RvbDAPF1 (val : Cell) : Statement (.wr16RvbDAPF1 val) := write_row (.glob .rvbDAPF1) val nofun rfl rfl

theorem wr16RvbDAPF2 (val : Cell) : Statement (.wr16RvbDAPF2 val) := write_row (.glob .rvbDAPF2) val nofun rfl rfl

theorem wr16RvbVIIR (val : Cell) : Statement (.wr16RvbVIIR val) := write_row (.glob .rvbVIIR) val nofun rfl rfl

theorem wr16RvbVCOMB1 (val : Cell) : Statement (.wr16RvbVCOMB1 val) := write_row (.glob .rvbVCOMB1) val nofun rfl rfl

theorem wr16RvbVCOMB2 (val : Cell) : Statement (.wr16RvbVCOMB2 val) := write_row (.glob .rvbVCOMB2) val nofun rfl rfl

theorem wr16RvbVCOMB3 (val : Cell) : Statement (.wr16RvbVCOMB3 val) := write_row (.glob .rvbVCOMB3) val nofun rfl rfl

theorem wr16RvbVCOMB4 (val : Cell) : Statement (.wr16RvbVCOMB4 val) := write_row (.glob .rvbVCOMB4) val nofun rfl rfl

theorem wr16RvbVWALL (val : Cell) : Statement (.wr16RvbVWALL val) := write_row (.glob .rvbVWALL) val nofun rfl rfl

theorem wr16RvbVAPF1 (val : Cell) : Statement (.wr16RvbVAPF1 val) := write_row (.glob .rvbVAPF1) val nofun rfl rfl

theorem wr16RvbVAPF2 (val : Cell) : Statement (.wr16RvbVAPF2 val) := write_row (.glob .rvbVAPF2) val nofun rfl rfl

theorem wr16RvbMLSAME (val : Cell) : Statement (.wr16RvbMLSAME val) := write_row (.glob .rvbMLSAME) val nofun rfl rfl

theorem wr16RvbMRSAME (val : Cell) : Statement (.wr16RvbMRSAME val) := write_row (.glob .rvbMRSAME) val nofun rfl rfl

theorem wr16RvbMLCOMB1 (val : Cell) : Statement (.wr16RvbMLCOMB1 val) := write_row (.glob .rvbMLCOMB1) val nofun rfl rfl

theorem wr16RvbMRCOMB1 (val : Cell) : Statement (.wr16RvbMRCOMB1 val) := write_row (.glob .rvbMRCOMB1) val nofun rfl rfl

theorem wr16RvbMLCOMB2 (val : Cell) : Statement (.wr16RvbMLCOMB2 val) := write_row (.glob .rvbMLCOMB2) val nofun rfl rfl

theorem wr16RvbMRCOMB2 (val : Cell) : Statement (.wr16RvbMRCOMB2 val) := write_row (.glob .rvbMRCOMB2) val nofun rfl rfl

theorem wr16RvbDLSAME (val : Cell) : Statement (.wr16RvbDLSAME val) := write_row (.glob .rvbDLSAME) val nofun rfl rfl

theorem wr16RvbDRSAME (val : Cell) : Statement (.wr16RvbDRSAME val) := write_row (.glob .rvbDRSAME) val nofun rfl rfl

theorem wr16RvbMLDIFF (val : Cell) : Statement (.wr16RvbMLDIFF val) := write_row (.glob .rvbMLDIFF) val nofun rfl rfl

theorem wr16RvbMRDIFF (val : Cell) : Statement (.wr16RvbMRDIFF val) := write_row (.glob .rvbMRDIFF) val nofun rfl rfl

theorem wr16RvbMLCOMB3 (val : Cell) : Statement (.wr16RvbMLCOMB3 val) := write_row (.glob .rvbMLCOMB3) val nofun rfl rfl

theorem wr16RvbMRCOMB3 (val : Cell) : Statement (.wr16RvbMRCOMB3 val) := write_row (.glob .rvbMRCOMB3) val nofun rfl rfl

theorem wr16RvbMLCOMB4 (val : Cell) : Statement (.wr16RvbMLCOMB4 val) := write_row (.glob .rvbMLCOMB4) val nofun rfl rfl

theorem wr16RvbMRCOMB4 (val : Cell) : Statement (.wr16RvbMRCOMB4 val) := write_row (.glob .rvbMRCOMB4) val nofun rfl rfl

theorem wr16RvbDLDIFF (val : Cell) : Statement (.wr16RvbDLDIFF val) := write_row (.glob .rvbDLDIFF) val nofun rfl rfl

theorem wr16RvbDRDIFF (val : Cell) : Statement (.wr16RvbDRDIFF val) := write_row (.glob .rvbDRDIFF) val nofun rfl rfl

theorem wr16RvbMLAPF1 (val : Cell) : Statement (.wr16RvbMLAPF1 val) := write_row (.glob .rvbMLAPF1) val nofun rfl rfl

theorem wr16RvbMRAPF1 (val : Cell) : Statement (.wr16RvbMRAPF1 val) := write_row (.glob .rvbMRAPF1) val nofun rfl rfl

theorem wr16RvbMLAPF2 (val : Cell) : Statement (.wr16RvbMLAPF2 val) := write_row (.glob .rvbMLAPF2) val nofun rfl rfl

theorem wr16RvbMRAPF2 (val : Cell) : Statement (.wr16RvbMRAPF2 val) := write_row (.glob .rvbMRAPF2) val nofun rfl rfl

theorem wr16RvbVLIN (val : Cell) : Statement (.wr16RvbVLIN val) := write_row (.glob .rvbVLIN) val nofun rfl rfl

theorem wr16RvbVRIN (val : Cell) : Statement (.wr16RvbVRIN val) := write_row (.glob .rvbVRIN) val nofun rfl rfl

theorem wr16VCurvolL (v : VoiceId) (val : Cell) : Statement (.wr16VCurvolL v val) := write_row (.curVol v .left) val nofun rfl rfl

theorem wr16VCurvolR (v : VoiceId) (val : Cell) : Statement (.wr16VCurvolR v val) := write_row (.curVol v .right) val nofun rfl rfl

theorem wr16Unmapped (h : HalfOff) (val : Cell) : Statement (.wr16Unmapped h val) := fun hw =>
  decode_encodeWrite (.unmapped h) val fun _ e => by cases e; exact wellFormed_unmapped hw

end Sys2Proof.Laws.RoundTrip
end

