-- ==== Sys2Proof/Laws/Voice.lean ====
section
/-!
SUPPORT. What a voice's record is after its own cycle (R282): the stages V6 to V9 as functions of the record, and the invariant R51.
-/

namespace Sys2Proof.Machine

open Sys2Proof.Safety

@[simp] theorem voiceCapture_voice (v : VoiceId) (e : Int) (s : State) (w : VoiceId) :
    (voiceCapture v e s).voice w = s.voice w := (voiceCapture_memOnly v e s).voice w

theorem sweepVoice_voice (v : VoiceId) (s : State) :
    (sweepVoice v s).voice v =
      { s.voice v with volL := sweepCycle (s.voiceReg v .volL) (s.voice v).volL
                       volR := sweepCycle (s.voiceReg v .volR) (s.voice v).volR } := by
  unfold sweepVoice
  rw [modVoice_voice_same]

theorem advanceVoice_voice (v : VoiceId) (fm : Int) (s : State) :
    (advanceVoice v fm s).voice v =
      if 0 < (s.voice v).startDelay then { s.voice v with startDelay := (s.voice v).startDelay - 1 }
      else consume (voiceStep v fm s) { s.voice v with adsr := adsrTick (s.adsrCfg v) (s.voice v).adsr } := by
  unfold advanceVoice
  rw [modVoice_voice_same]

theorem voiceRestart_voice (c : Config) (v : VoiceId) (s : State) :
    (voiceRestart c v s).voice v =
      { decoderRestart (s.startIndex v) (s.voice v) with
          adsr := adsrAttack (s.voice v).adsr, phase := 0#16, startDelay := c.startDelay } := by
  unfold voiceRestart
  rw [clearEndx_voice, modVoice_voice_same]

theorem keyEvents_voice_on {c : Config} {v : VoiceId} {s : State} (h : s.keyOn.getLsbD v.val = true) :
    ∃ A : Adsr, (keyEvents c v s).voice v =
      { decoderRestart (s.startIndex v) (s.voice v) with adsr := adsrAttack A, phase := 0#16, startDelay := c.startDelay } := by
  unfold keyEvents
  simp only
  rw [if_pos h, voiceRestart_voice]
  split
  · rw [modVoice_voice_same]
    exact ⟨_, rfl⟩
  · exact ⟨_, rfl⟩

theorem keyEvents_voice_off {c : Config} {v : VoiceId} {s : State} (h : s.keyOn.getLsbD v.val = false) :
    (keyEvents c v s).voice v =
      if s.keyOff.getLsbD v.val then { s.voice v with adsr := adsrRelease (s.voice v).adsr } else s.voice v := by
  unfold keyEvents
  simp only
  rw [if_neg (by rw [h]; decide)]
  split
  · rw [modVoice_voice_same]
  · rfl

theorem disableMute_voice (v : VoiceId) (s : State) :
    (disableMute v s).voice v =
      if s.spuEnable then s.voice v else { s.voice v with adsr := adsrMute (s.voice v).adsr } := by
  unfold disableMute
  split
  · rfl
  · rw [modVoice_voice_same]

/-- The ENDX bit of a voice after its key events (R293). -/
theorem keyEvents_endx (c : Config) (v : VoiceId) (s : State) :
    (keyEvents c v s).endx.getLsbD v.val = (s.endx.getLsbD v.val && !s.keyOn.getLsbD v.val) := by
  have hlt : (v : Nat) < 24 := v.isLt
  unfold keyEvents
  simp only
  have hs : (if s.keyOff.getLsbD v.val = true then s.modVoice v fun V => { V with adsr := adsrRelease V.adsr } else s).endx
      = s.endx := by split <;> rfl
  cases hk : s.keyOn.getLsbD v.val with
  | false => rw [if_neg (by decide), hs, Bool.not_false, Bool.and_true]
  | true =>
    rw [if_pos rfl]
    unfold voiceRestart
    rw [clearEndx_endx, BitVec.getLsbD_and, BitVec.getLsbD_not, voiceBit_same]
    simp

/-- A decoder step sets its ENDX bit or leaves it (R203). -/
theorem decoderStep_endx (c : Config) (v : VoiceId) (s : State) (h : s.endx.getLsbD v.val = true) :
    (decoderStep c v s).endx.getLsbD v.val = true := by
  have loop : (loopAction v s).endx.getLsbD v.val = true := by
    unfold loopAction
    simp only
    split
    · split
      · rw [setEndx_endx, BitVec.getLsbD_or, voiceBit_same, Bool.or_true]
      · show (setEndx v _).endx.getLsbD v.val = true
        rw [setEndx_endx, BitVec.getLsbD_or, voiceBit_same, Bool.or_true]
    · exact h
  unfold decoderStep
  split
  · rw [(decoderCheck_memOnly _ _).endx]; exact h
  · unfold decodeNext
    simp only
    split
    · show (fetchHeader v (decoderCheck _ (loopAction v s))).endx.getLsbD v.val = true
      show (decoderCheck _ (loopAction v s)).endx.getLsbD v.val = true
      rw [(decoderCheck_memOnly _ _).endx]
      exact loop
    · show (decoderCheck _ s).endx.getLsbD v.val = true
      rw [(decoderCheck_memOnly _ _).endx]
      exact h

/-- The stages before the key events of a voice cycle: same registers, same latches. -/
def voiceMid (c : Config) (fm : Int) (v : VoiceId) (s : State) : State :=
  advanceVoice v fm (sweepVoice v (voiceCapture v (enveloped (rawSample c v (decoderStep c v s)) ((decoderStep c v s).voice v))
    (decoderStep c v s)))

theorem voiceCycleState_eq (c : Config) (fm : Int) (v : VoiceId) (s : State) :
    voiceCycleState c fm v s = disableMute v (keyEvents c v (voiceMid c fm v s)) := rfl

theorem voiceMid_voiceStep (c : Config) (fm : Int) (v : VoiceId) (s : State) : VoiceStep v s (voiceMid c fm v s) := by
  unfold voiceMid
  exact (((decoderStep_voiceStep c v s).trans (.of_memOnly v (voiceCapture_memOnly _ _ _))).trans (sweepVoice_voiceStep v _)).trans
    (advanceVoice_voiceStep v _ _)

theorem voiceMid_endx (c : Config) (fm : Int) (v : VoiceId) (s : State) :
    (voiceMid c fm v s).endx = (decoderStep c v s).endx := by
  unfold voiceMid
  have h := (voiceCapture_memOnly v (enveloped (rawSample c v (decoderStep c v s)) ((decoderStep c v s).voice v))
    (decoderStep c v s)).endx
  exact h

/-- The record after the stages before the key events. -/
theorem voiceMid_voice (c : Config) (fm : Int) (v : VoiceId) (s : State) :
    (0 < ((decoderStep c v s).voice v).startDelay ∧
      ∃ a b, (voiceMid c fm v s).voice v =
        { (decoderStep c v s).voice v with volL := a, volR := b, startDelay := ((decoderStep c v s).voice v).startDelay - 1 }) ∨
    (((decoderStep c v s).voice v).startDelay = 0 ∧
      ∃ a b step cfg, (voiceMid c fm v s).voice v =
        consume step { (decoderStep c v s).voice v with volL := a, volR := b, adsr := adsrTick cfg ((decoderStep c v s).voice v).adsr }) := by
  unfold voiceMid
  rw [advanceVoice_voice, sweepVoice_voice, voiceCapture_voice]
  split
  · rename_i h; exact .inl ⟨h, _, _, rfl⟩
  · rename_i h
    simp only [Nat.not_lt, Nat.le_zero] at h
    exact .inr ⟨h, _, _, _, _, rfl⟩

/-- A decoder step leaves the volume units of its voice. -/
theorem decoderStep_vol (c : Config) (v : VoiceId) (s : State) :
    ((decoderStep c v s).voice v).volL = (s.voice v).volL ∧ ((decoderStep c v s).voice v).volR = (s.voice v).volR := by
  have data : ∀ t : State, ((fetchData c v t).voice v).volL = (t.voice v).volL ∧ ((fetchData c v t).voice v).volR = (t.voice v).volR := by
    intro t
    unfold fetchData
    rw [modVoice_voice_same, decodeCell_decodeOnly]
    exact ⟨rfl, rfl⟩
  have header : ∀ t : State,
      ((fetchHeader v t).voice v).volL = (t.voice v).volL ∧ ((fetchHeader v t).voice v).volR = (t.voice v).volR := by
    intro t
    unfold fetchHeader
    rw [modVoice_voice_same]
    simp only
    rw [headerCapture_frame]
    exact ⟨rfl, rfl⟩
  have loop : ((loopAction v s).voice v).volL = (s.voice v).volL ∧ ((loopAction v s).voice v).volR = (s.voice v).volR := by
    unfold loopAction releaseAndMute
    simp only
    split
    · split <;> simp
    · exact ⟨rfl, rfl⟩
  unfold decoderStep decodeNext
  simp only
  split
  · rw [(decoderCheck_memOnly _ _).voice]; exact ⟨rfl, rfl⟩
  · split
    · rw [(data _).1, (data _).2, (header _).1, (header _).2, (decoderCheck_memOnly _ _).voice]
      exact loop
    · rw [(data _).1, (data _).2, (decoderCheck_memOnly _ _).voice]
      exact ⟨rfl, rfl⟩

/-- A voice's volume units take one sweep cycle in its cycle and nothing else, key events and restart included (R289, R293). -/
theorem voiceCycleState_vol (c : Config) (fm : Int) (v : VoiceId) (s : State) :
    ((voiceCycleState c fm v s).voice v).volL = sweepCycle (s.voiceReg v .volL) (s.voice v).volL ∧
    ((voiceCycleState c fm v s).voice v).volR = sweepCycle (s.voiceReg v .volR) (s.voice v).volR := by
  have keys : ∀ t : State, ((disableMute v (keyEvents c v t)).voice v).volL = (t.voice v).volL ∧
      ((disableMute v (keyEvents c v t)).voice v).volR = (t.voice v).volR := by
    intro t
    cases hk : t.keyOn.getLsbD v.val with
    | true =>
      obtain ⟨A, hA⟩ := keyEvents_voice_on (c := c) hk
      rw [disableMute_voice, hA]
      split <;> exact ⟨rfl, rfl⟩
    | false =>
      rw [disableMute_voice, keyEvents_voice_off hk]
      split <;> split <;> exact ⟨rfl, rfl⟩
  have mid : ∀ (e : Int) (t : State), ((advanceVoice v fm (sweepVoice v (voiceCapture v e t))).voice v).volL =
        sweepCycle (t.voiceReg v .volL) (t.voice v).volL ∧
      ((advanceVoice v fm (sweepVoice v (voiceCapture v e t))).voice v).volR =
        sweepCycle (t.voiceReg v .volR) (t.voice v).volR := by
    intro e t
    have hr : ∀ k, (voiceCapture v e t).voiceReg v k = t.voiceReg v k := fun k => (voiceCapture_memOnly v e t).reg _
    rw [advanceVoice_voice, sweepVoice_voice, voiceCapture_voice, hr, hr]
    split <;> exact ⟨rfl, rfl⟩
  have hd : ∀ k, (decoderStep c v s).voiceReg v k = s.voiceReg v k := fun k => by
    simp only [State.voiceReg, State.reg, (decoderStep_voiceStep c v s).pass.regs]
  obtain ⟨h1, h2⟩ := decoderStep_vol c v s
  rw [voiceCycleState_eq, (keys _).1, (keys _).2]
  unfold voiceMid
  rw [(mid _ _).1, (mid _ _).2, hd, hd, h1, h2]
  exact ⟨rfl, rfl⟩

theorem startIndex_congr {s t : State} (h : t.regs = s.regs) (v : VoiceId) : t.startIndex v = s.startIndex v := by
  simp only [State.startIndex, State.voiceReg, State.reg, h]

/-- A voice that is keyed on in a tick ends its cycle restarted, and silent if the SPU is disabled (R292, R293, R294). -/
theorem voiceCycleState_keyOn {c : Config} {fm : Int} {v : VoiceId} {s : State} (h : s.keyOn.getLsbD v.val = true) :
    ∃ W : Voice, W.loopIndex = ((decoderStep c v s).voice v).loopIndex ∧ (voiceCycleState c fm v s).voice v =
      { decoderRestart (s.startIndex v) W with
          adsr := { st := if s.spuEnable then .attack else .release, level := 0#16, divider := 0#16 }
          phase := 0#16, startDelay := c.startDelay } := by
  have hm := (voiceMid_voiceStep c fm v s).pass
  have hk : (voiceMid c fm v s).keyOn.getLsbD v.val = true := by rw [hm.keyOn]; exact h
  obtain ⟨A, hA⟩ := keyEvents_voice_on (c := c) hk
  have hr := (keyEvents_voiceStep c v (voiceMid c fm v s)).pass
  rw [voiceCycleState_eq, disableMute_voice, hA, hr.spuEnable, hm.spuEnable, startIndex_congr hm.regs]
  refine ⟨(voiceMid c fm v s).voice v, ?_, ?_⟩
  · rcases voiceMid_voice c fm v s with ⟨-, a, b, e⟩ | ⟨-, a, b, st, cfg, e⟩
    · rw [e]
    · rw [e]; rfl
  · split <;> simp_all [adsrAttack, adsrMute, adsrRelease]

/-- A voice that is keyed off and not on ends its cycle in Release with divider 0 (R241, R292). -/
theorem voiceCycleState_keyOff {c : Config} {fm : Int} {v : VoiceId} {s : State} (h1 : s.keyOn.getLsbD v.val = false)
    (h2 : s.keyOff.getLsbD v.val = true) :
    ((voiceCycleState c fm v s).voice v).adsr.st = .release ∧ ((voiceCycleState c fm v s).voice v).adsr.divider = 0#16 := by
  have hm := (voiceMid_voiceStep c fm v s).pass
  have e := keyEvents_voice_off (c := c) (show (voiceMid c fm v s).keyOn.getLsbD v.val = false by rw [hm.keyOn]; exact h1)
  rw [hm.keyOff, if_pos h2] at e
  rw [voiceCycleState_eq, disableMute_voice, e]
  split <;> exact ⟨rfl, rfl⟩

/-- With the SPU enabled, a voice that is keyed off and not on keeps the level that the stages before the key events left (R241). -/
theorem voiceCycleState_keyOff_level {c : Config} {fm : Int} {v : VoiceId} {s : State} (h1 : s.keyOn.getLsbD v.val = false)
    (h2 : s.keyOff.getLsbD v.val = true) (he : s.spuEnable = true) :
    ((voiceCycleState c fm v s).voice v).adsr.level = ((voiceMid c fm v s).voice v).adsr.level := by
  have hm := (voiceMid_voiceStep c fm v s).pass
  have hr := (keyEvents_voiceStep c v (voiceMid c fm v s)).pass
  have e := keyEvents_voice_off (c := c) (show (voiceMid c fm v s).keyOn.getLsbD v.val = false by rw [hm.keyOn]; exact h1)
  rw [hm.keyOff, if_pos h2] at e
  rw [voiceCycleState_eq, disableMute_voice, hr.spuEnable, hm.spuEnable, he, if_pos rfl, e]
  rfl

/-- While the SPU is disabled a voice ends its cycle in Release at level 0 (R294). -/
theorem voiceCycleState_disabled {c : Config} {fm : Int} {v : VoiceId} {s : State} (h : s.spuEnable = false) :
    ((voiceCycleState c fm v s).voice v).adsr = { st := .release, level := 0#16, divider := 0#16 } := by
  have hm := (voiceMid_voiceStep c fm v s).pass
  have hr := (keyEvents_voiceStep c v (voiceMid c fm v s)).pass
  rw [voiceCycleState_eq, disableMute_voice, hr.spuEnable, hm.spuEnable, h]
  rfl

/-- The ENDX bit of a voice falls in its cycle only by a key-on (R293, R367). -/
theorem voiceCycleState_endx {c : Config} {fm : Int} {v : VoiceId} {s : State} (h : s.endx.getLsbD v.val = true)
    (hk : s.keyOn.getLsbD v.val = false) : (voiceCycleState c fm v s).endx.getLsbD v.val = true := by
  have hm := (voiceMid_voiceStep c fm v s).pass
  have hd : (disableMute v (keyEvents c v (voiceMid c fm v s))).endx = (keyEvents c v (voiceMid c fm v s)).endx := by
    unfold disableMute
    split <;> rfl
  rw [voiceCycleState_eq, hd, keyEvents_endx, hm.keyOn, hk, voiceMid_endx, decoderStep_endx c v s h]
  rfl

/-- The length the FIFO has when the resampler reads it, in a state with a FIFO of at most 14 samples (R205). -/
theorem decoderStep_window {c : Config} (hc : c.fifoDecodeBelow = 11) (v : VoiceId) (s : State) (h : (s.voice v).fifo.length ≤ 14) :
    4 ≤ ((decoderStep c v s).voice v).fifo.length ∧ ((decoderStep c v s).voice v).fifo.length ≤ 14 := by
  rcases decoderStep_voice c v s with ⟨h1, e⟩ | ⟨h1, e, -⟩
  · rw [e]; omega
  · omega

/-- A decoder step keeps R51 of its voice. -/
theorem decoderStep_ok {c : Config} (hc : c.fifoDecodeBelow = 11) {v : VoiceId} {s : State} (h : VoiceOk (s.voice v)) :
    VoiceOk ((decoderStep c v s).voice v) ∧ ((decoderStep c v s).voice v).startDelay = (s.voice v).startDelay := by
  have hw := decoderStep_window hc v s h.2.2
  rcases decoderStep_voice c v s with ⟨-, e⟩ | ⟨-, -, hp, hd, ha⟩
  · rw [e]; exact ⟨h, rfl⟩
  · refine ⟨⟨?_, ?_, hw.2⟩, hd⟩
    · rcases ha with ha | ha <;> rw [ha]
      · exact h.1
      · rw [adsrMute_level]; decide
    · rw [hp]; exact h.2.1

/-- A voice cycle keeps R50 and R51 of its voice. -/
theorem voiceCycleState_ok {c : Config} (hc : c.fifoDecodeBelow = 11) {fm : Int} {v : VoiceId} {s : State} (h : VoiceOk (s.voice v))
    (hd : (s.voice v).startDelay ≤ c.startDelay) :
    VoiceOk ((voiceCycleState c fm v s).voice v) ∧ ((voiceCycleState c fm v s).voice v).startDelay ≤ c.startDelay := by
  obtain ⟨h1, h2⟩ := decoderStep_ok hc h
  have mid : VoiceOk ((voiceMid c fm v s).voice v) ∧ ((voiceMid c fm v s).voice v).startDelay ≤ c.startDelay := by
    rcases voiceMid_voice c fm v s with ⟨-, a, b, e⟩ | ⟨h0, a, b, st, cfg, e⟩
    · rw [e]
      exact ⟨h1, by simp only; omega⟩
    · rw [e]
      refine ⟨⟨adsrTick_level_le h1.1 cfg, consume_phase_lt _ _, ?_⟩, ?_⟩
      · rw [(consume_spec _ _).2.1, List.length_drop]
        exact Nat.le_trans (Nat.sub_le _ _) h1.2.2
      · show ((decoderStep c v s).voice v).startDelay ≤ c.startDelay
        omega
  have key : VoiceOk ((keyEvents c v (voiceMid c fm v s)).voice v) ∧
      ((keyEvents c v (voiceMid c fm v s)).voice v).startDelay ≤ c.startDelay := by
    cases hk : (voiceMid c fm v s).keyOn.getLsbD v.val with
    | true =>
      obtain ⟨A, hA⟩ := keyEvents_voice_on (c := c) hk
      rw [hA]
      refine ⟨⟨?_, ?_, ?_⟩, le_refl _⟩
      · rw [adsrAttack_level]; decide
      · show (0#16).toNat < 0x1000; decide
      · exact Nat.zero_le _
    | false =>
      rw [keyEvents_voice_off hk]
      split
      · exact mid
      · exact mid
  rw [voiceCycleState_eq, disableMute_voice]
  split
  · exact key
  · refine ⟨⟨?_, key.1.2⟩, key.2⟩
    rw [adsrMute_level]; decide

end Sys2Proof.Machine
end

