-- ==== Sys2Proof/Machine/Pseudo.lean ====
section
/-!
DEFINITION. The textual names of registers (R127) and the pseudo-commands with their expansions (R128). Nothing here is a command of its
own: an expansion is a list of core commands, and its words go to the command port.
-/

namespace Sys2Proof

/-- A voice register's name after `Vn.` (R127). -/
def VReg.name : VReg → String
  | .volL => "VOL_L"
  | .volR => "VOL_R"
  | .pitch => "PITCH"
  | .start => "START"
  | .adsrLo => "ADSR_LO"
  | .adsrHi => "ADSR_HI"
  | .level => "LEVEL"
  | .repeatIx => "REPEAT"

/-- A global register's name, where R33 gives it one (R127); the other cells are written by their numeric offset. -/
def GReg.name? : GReg → Option String
  | .mainVolL => some "MAIN_VOL_L"
  | .mainVolR => some "MAIN_VOL_R"
  | .rvbOutL => some "RVB_OUT_L"
  | .rvbOutR => some "RVB_OUT_R"
  | .konLo => some "KON_LO"
  | .konHi => some "KON_HI"
  | .koffLo => some "KOFF_LO"
  | .koffHi => some "KOFF_HI"
  | .fmLo => some "FM_LO"
  | .fmHi => some "FM_HI"
  | .noiseLo => some "NOISE_LO"
  | .noiseHi => some "NOISE_HI"
  | .rvbEnLo => some "RVB_EN_LO"
  | .rvbEnHi => some "RVB_EN_HI"
  | .endxLo => some "ENDX_LO"
  | .endxHi => some "ENDX_HI"
  | .rvbBase => some "RVB_BASE"
  | .irqAddr => some "IRQ_ADDR"
  | .xferAddr => some "XFER_ADDR"
  | .xferFifo => some "XFER_FIFO"
  | .control => some "CONTROL"
  | .xferCtrl => some "XFER_CTRL"
  | .status => some "STATUS"
  | .cdVolL => some "CD_VOL_L"
  | .cdVolR => some "CD_VOL_R"
  | _ => none

/-- A register's textual name; it "stands for byte offset 2h" of the register's offset (R127). -/
def LogReg.name? : LogReg → Option String
  | .voice v r => some ("V" ++ toString v.val ++ "." ++ r.name)
  | .glob g => g.name?
  | .curVol v .left => some ("V" ++ toString v.val ++ ".CURVOL_L")
  | .curVol v .right => some ("V" ++ toString v.val ++ ".CURVOL_R")
  | .unmapped _ => none

/-- The byte offset that a register's name stands for (R127). -/
def LogReg.byteOffset (r : LogReg) : ByteOff := byteOff r.offset

/-- The pseudo-commands of R128; `RD16 reg -> x` is RD16 itself. -/
inductive Pseudo where
  | keyon (m : Mask24)
  | keyoff (m : Mask24)
  | adsr (n : VoiceId) (c : BitVec 32)
  | ticks (k : Nat)
  /-- `i` is a multiple of 4; its low two bits are not used. -/
  | wrram (i : Index) (ws : List Cell)
  deriving DecidableEq, Repr

/-- The expansion of a pseudo-command (R128). -/
def Pseudo.expand : Pseudo → List Instr
  | .keyon m => [.wr16KonLo (m.extractLsb' 0 16), .wr16KonHi (0#8 ++ m.extractLsb' 16 8)]
  | .keyoff m => [.wr16KoffLo (m.extractLsb' 0 16), .wr16KoffHi (0#8 ++ m.extractLsb' 16 8)]
  | .adsr n c => [.wr32 (LogReg.voice n .adsrLo).byteOffset c]
  | .ticks k => List.replicate k .tick
  | .wrram i ws => .wr16XferAddr (i.extractLsb' 2 16) :: ws.map .wr16XferFifo

/-- The words of a pseudo-command, as they go to the command port. -/
def Pseudo.words (p : Pseudo) : List CmdWord := p.expand.map encode

end Sys2Proof
end

