-- ==== Sys2Proof/Tests/Slice0.lean ====
section
/-!
SUPPORT. Tests: ill-formed terms refused, words written out from the encodings of 30_encoding.md, single steps with expected values from
95_test_vectors.md, and a witness for the hypotheses of every statement.
-/

namespace Sys2Proof.Tests

-- Each kernel evaluation waits for the earlier ones; checked one after another they need no thread each.
set_option Elab.async false

open Sys2Proof.Machine Sys2Proof.Safety

/-- The state after one command word, from a given state. -/
def after (s : State) (w : Nat) : State :=
  match step (s.withFetchWord 48 w) with
  | .next t => t
  | _ => s

/-- The response of one command word, in a given state. -/
def answer (s : State) (w : Nat) : Response := (after s w).resp

/-- The reset state with one register cell set. -/
def withReg (h : CellId) (x : Cell) : State := State.reset.setReg h x

/-! Ill-formed terms: an UNMAPPED row at a mapped offset stands for no command word (R130). -/

theorem test_wellFormed_refuses_read : Instr.wellFormed (.rd16Unmapped 0x12F) = false := by decide
theorem test_wellFormed_refuses_write : Instr.wellFormed (.wr16Unmapped 0x12F 1) = false := by decide
theorem test_wellFormed_accepts : Instr.wellFormed (.rd16Unmapped 0x130) = true ∧ Instr.wellFormed (.wr16Unmapped 0x7FF 1) = true := by
  decide

/-! Decoding, word by word from R120 (op in bits 47..44, boff in 43..32, data in 31..0), R122, R129, R130 and the cell table R33. -/

theorem test_decode_commands :
    [0x000000000000, 0x1FFF00000000, 0x355400000000, 0x4000FFFF0001, 0x55550000005A, 0x7ABC12345678, 0x8000BEEF1234, 0x900000000000,
      0xA00000000000, 0xB0000000029C, 0xC00020004000, 0xD00000000003, 0xE20000600064, 0xF00000000000].map (decodeTableWord 48) =
    [.nop, .rd8 0xFFF, .rd32 0x554, .push 1 0xFFFF, .wr8 0x555 0x5A, .wr32 0xABC 0x12345678, .dmast 0xBEEF1234, .dmald, .tick,
      .resync 668, .cdin 0x4000 0x2000, .pop 3, .ringcfg 100 .halveBuffer true 0x200, .reset].map some := by decide

/-- Bits that a command does not use are ignored (R120, R125). -/
theorem test_decode_unused_bits :
    [0x0FFFFFFFFFFF, 0x9FFFFFFFFFFF, 0xAFFFFFFFFFFF, 0xFFFFFFFFFFFF, 0x2FFFFFFFFFFF, 0x5005FFFFFFAB].map (decodeTableWord 48) =
    [.nop, .dmald, .tick, .reset, .rd16Unmapped 0x7FF, .wr8 0x005 0xAB].map some := by decide

theorem test_decode_ring_policies :
    [0xE00000000008, 0xE00000100008, 0xE00000200008, 0xE00000300008, 0xEFFF004FFFFF].map (decodeTableWord 48) =
    [.ringcfg 8 .dropOldest false 0, .ringcfg 8 .dropNewest false 0, .ringcfg 8 .halveBuffer false 0, .ringcfg 8 .reset false 0,
      .ringcfg 0xFFFFF .dropOldest true 0xFFF].map some := by decide

/-- Voice registers: byte offset 16v + 2r; voice 23 ends at 0x17E. -/
theorem test_decode_voice_rows :
    [0x200000000000, 0x601212342000, 0x200400000000, 0x602600000400, 0x600800FF00FF, 0x601A0000001F, 0x200C00000000, 0x617E0000ABCD].map
      (decodeTableWord 48) =
    [.rd16VVolL 0, .wr16VVolR 1 0x2000, .rd16VPitch 0, .wr16VStart 2 0x0400, .wr16VAdsrLo 0 0x00FF, .wr16VAdsrHi 1 0x001F,
      .rd16VLevel 0, .wr16VRepeat 23 0xABCD].map some := by decide

/-- Global registers from 0x180 (cell 0xC0) to 0x1BE (cell 0xDF), reads. -/
theorem test_decode_global_rows :
    [0x218000000000, 0x218200000000, 0x218400000000, 0x218600000000, 0x218800000000, 0x218A00000000, 0x218C00000000, 0x218E00000000,
      0x219000000000, 0x219200000000, 0x219400000000, 0x219600000000, 0x219800000000, 0x219A00000000, 0x219C00000000, 0x219E00000000,
      0x21A000000000, 0x21A200000000, 0x21A400000000, 0x21A600000000, 0x21A800000000, 0x21AA00000000, 0x21AC00000000, 0x21AE00000000,
      0x21B000000000, 0x21B200000000, 0x21B400000000, 0x21B600000000, 0x21B800000000, 0x21BA00000000, 0x21BC00000000, 0x21BE00000000].map
      (decodeTableWord 48) =
    [.rd16MainVolL, .rd16MainVolR, .rd16RvbOutL, .rd16RvbOutR, .rd16KonLo, .rd16KonHi, .rd16KoffLo, .rd16KoffHi, .rd16FmLo, .rd16FmHi,
      .rd16NoiseLo, .rd16NoiseHi, .rd16RvbEnLo, .rd16RvbEnHi, .rd16EndxLo, .rd16EndxHi, .rd16CellD0, .rd16RvbBase, .rd16IrqAddr,
      .rd16XferAddr, .rd16XferFifo, .rd16Control, .rd16XferCtrl, .rd16Status, .rd16CdVolL, .rd16CdVolR, .rd16CellDA, .rd16CellDB,
      .rd16CellDC, .rd16CellDD, .rd16CellDE, .rd16CellDF].map some := by decide

/-- Reverb cells from 0x1C0 (cell 0xE0) to 0x1FE (cell 0xFF), writes, in the order of R311's table. -/
theorem test_decode_reverb_rows :
    [0x61C000000001, 0x61C200000001, 0x61C400000001, 0x61C600000001, 0x61CE00000001, 0x61D400000001, 0x61D600000001, 0x61E000000001,
      0x61E200000001, 0x61E400000001, 0x61F000000001, 0x61F200000001, 0x61FC00000001, 0x61FE00000001].map (decodeTableWord 48) =
    [.wr16RvbDAPF1 1, .wr16RvbDAPF2 1, .wr16RvbVIIR 1, .wr16RvbVCOMB1 1, .wr16RvbVWALL 1, .wr16RvbMLSAME 1, .wr16RvbMRSAME 1,
      .wr16RvbDLSAME 1, .wr16RvbDRSAME 1, .wr16RvbMLDIFF 1, .wr16RvbDLDIFF 1, .wr16RvbDRDIFF 1, .wr16RvbVLIN 1, .wr16RvbVRIN 1].map
      some := by decide

/-- Current levels from 0x200 (h = 0x100) to 0x25E; unmapped from 0x260 (h = 0x130); an odd offset selects the same half-word. -/
theorem test_decode_curvol_and_unmapped :
    [0x220000000000, 0x220200000000, 0x225E00000000, 0x226000000000, 0x626000001234, 0x2FFE00000000, 0x200500000000].map
      (decodeTableWord 48) =
    [.rd16VCurvolL 0, .rd16VCurvolR 0, .rd16VCurvolR 23, .rd16Unmapped 0x130, .wr16Unmapped 0x130 0x1234, .rd16Unmapped 0x7FF,
      .rd16VPitch 0].map some := by decide

/-- Encoding: words of the programs of 95_test_vectors.md section 13. -/
theorem test_encode_program_words :
    [Instr.wr16IrqAddr 0x0100, .wr16XferFifo 0x5678, .rd16Status, .dmast 0x0BADF00D, .ringcfg 64 .dropOldest false 0,
      .wr32 0x008 0x1F0000FF, .wr16KonLo 1, .resync 3940].map (fun i => (encode i).toNat) =
    [0x61A400000100, 0x61A800005678, 0x21AE00000000, 0x80000BADF00D, 0xE00000000040, 0x70081F0000FF, 0x618800000001,
      0xB00000000F64] := by decide

/-- A number wider than a command word is rejected by name (R121). -/
theorem test_decode_rejects_wide : decodeNumber (2 ^ 48) = .error .longerThanACommand := by decide

/-- Pseudo-commands (R128). -/
theorem test_pseudo_keyon : (Pseudo.keyon 0x800001).words.map BitVec.toNat = [0x618800000001, 0x618A00000080] := by decide
theorem test_pseudo_wrram : (Pseudo.wrram 0x1000 [0x0700, 0x1234]).words.map BitVec.toNat =
    [0x61A600000400, 0x61A800000700, 0x61A800001234] := by decide
theorem test_pseudo_adsr : (Pseudo.adsr 0 0x1F0000FF).words.map BitVec.toNat = [0x70081F0000FF] := by decide

/-! Arithmetic (section 2, rows M1 to M15). -/

theorem test_mul15 :
    [mul15 0x4000 0x4000, mul15 32767 0x7FFF, mul15 1 0x7FFF, mul15 (-1) 0x7FFF, mul15 (-32768) 0x7FFF, mul15 (-32768) (-32768),
      mul15 12345 (-32768), mul15 (-1000) 0x2000] = [8192, 32766, 0, -1, -32767, 32768, -12345, -250] := by decide
theorem test_div64_sat16 :
    [div64 (-130), div64 (-1), div64 63, div64 64, div64 (-64), div64 (-65), sat16 32768, sat16 (-32769), s16 0x8000, asr (-1) 15] =
    [-3, -1, 0, 1, -1, -2, 32767, -32768, -32768, -1] := by decide

/-! The decoder (section 3), one cell each. -/

/-- Samples and new history of a data cell under a header and a history. -/
def decoded (hdr : Cell) (h0 h1 : Int) (w : Cell) : List Int × Int × Int :=
  let V := decodeCell std w { Voice.reset with hdr := hdr, hist0 := u16 h0, hist1 := u16 h1 }
  (V.fifo.map s16, s16 V.hist0, s16 V.hist1)

theorem test_decode_cell_D1 : decoded 0x0000 0 0 0x1234 = ([16384, 12288, 8192, 4096], 4096, 8192) := by decide
theorem test_decode_cell_D6 : decoded 0x0030 (-3) 7 0 = ([-12, -17, -17, -13], -13, -17) := by decide
theorem test_decode_cell_D7 : decoded 0x0040 32767 (-32768) 0x7777 = ([32767, 32767, 32767, 32767], 32767, 32767) := by decide
theorem test_decode_cell_D9 : decoded 0x000D 0 0 0xF7A8 = ([-128, -128, 0, -128], -128, 0) := by decide
theorem test_decode_cell_D13 : decoded 0x0014 100 0 0xF1F1 = ([349, 71, 322, 45], 45, 322) := by decide

/-! The resampler (section 4), with FIR4_TEST in the place of the free table. -/

/-- FIR4_TEST of 95_test_vectors.md. -/
def fir4Test (i : BitVec 8) (k : Fin 4) : BitVec 16 :=
  match k.val with
  | 1 => BitVec.ofNat 16 (0x4000 - 64 * i.toNat)
  | 2 => BitVec.ofNat 16 (64 * i.toNat)
  | _ => 0

/-- The interpolated sample at a phase over a window. -/
def interpolated (phase : BitVec 16) (window : List Int) : Int :=
  interpolate { std with fir4 := fir4Test } { Voice.reset with phase := phase, fifo := window.map u16 }

theorem test_interpolate :
    [interpolated 0x0000 [100, 200, 300, 400], interpolated 0x0800 [100, 200, 300, 400], interpolated 0x0FF0 [100, 200, 300, 400],
      interpolated 0x0010 [-32768, -32768, 32767, 0], interpolated 0x07F0 [0, 32767, -32768, 0]] = [100, 125, 149, -16257, 127] := by
  decide
theorem test_consume_X3 :
    consume 0x3FFF { Voice.reset with phase := 0x0FFF, fifo := [1, 2, 3, 4, 5] } =
      { Voice.reset with phase := 0x0FFE, fifo := [5] } := by decide
theorem test_modulate :
    [modulate 0x1000 16384, modulate 0x1000 (-32768), modulate 0x3FFF 32767, modulate 0x8000 (-16384), modulate 0x0800 (-1)] =
    [0x1800, 0, 0x7FFD, 0x4000, 0x07FF] := by decide
/-- Voice 0 is never modulated (R44), and the step is clamped (X12). -/
theorem test_voice_step :
    voiceStep 0 (-32768) ((withReg 0xC8 0xFFFF).setReg 2 0x1000) = 0x1000 ∧ voiceStep 1 0 (withReg 10 0xFFFF) = 0x3FFF ∧
    voiceStep 1 (-32768) ((withReg 0xC8 0x0002).setReg 10 0x1000) = 0 := by decide

/-! The envelope (section 5), one cycle each. -/

/-- One envelope cycle. -/
def env (cfg : BitVec 32) (st : EnvState) (level : Sample) (divider : BitVec 16) : Adsr :=
  adsrTick cfg { st := st, level := level, divider := divider }

theorem test_env_A1 : env 0 .attack 0x7000 0 = ⟨.decay, 0x7FFF, 0⟩ ∧ env 0 .decay 0x0FFF 0 = ⟨.sustain, 0x07FF, 0⟩ := by decide +kernel
theorem test_env_A3 : env 0x1F0000FF .decay 0x7FFF 0x7800 = ⟨.sustain, 0x7FF7, 0⟩ ∧
    env 0x1F0000FF .decay 0x7FFF 0x7000 = ⟨.decay, 0x7FFF, 0x7800⟩ := by decide +kernel
theorem test_env_A4 : env 0x3000 .attack 0 0x4000 = ⟨.attack, 7, 0⟩ ∧ env 0x3000 .attack 7 0 = ⟨.attack, 7, 0x4000⟩ := by decide
theorem test_env_A5 : env 0x8000 .attack 0x7000 0 = ⟨.attack, 0x7E00, 0⟩ := by decide
theorem test_env_A7 : env 0 .release 0x7FFF 0 = ⟨.release, 0x3FFF, 0⟩ := by decide

/-- R227's examples. -/
theorem test_steps_R227 : steps 0 7 = (0x8000, 0x3800) ∧ steps 13 (-8) = (0x2000, -8) ∧ steps 33 (-8) = (1, -8) := by decide

/-! The sweep (section 6), one cycle each. -/

/-- R255's examples. -/
theorem test_volConfig_R255 : [volConfig 0x3FFF, volConfig 0x4000, volConfig 0x7FFF, volConfig 0x8000] =
    [.fixed 0x7FFE, .fixed (-0x8000), .fixed (-2), .sweep ⟨0x8000, 0x3800, .linear⟩ false] := by decide

/-- The level after one sweep cycle from a level and divider 0. -/
def swept (word : Cell) (level : Int) : Int := s16 (sweepCycle word { level := u16 level, divider := 0 }).level

theorem test_sweep_fixed : [swept 0x3FFF 9, swept 0x4000 9, swept 0x7FFF 9, swept 0x0001 5] = [32766, -32768, -2, 2] := by decide
theorem test_sweep_ramps :
    [swept 0x8000 28672, swept 0x9000 0, swept 0x9000 (-28672), swept 0xA000 16382, swept 0xE000 32766, swept 0xC000 28672,
      swept 0x8000 (-16384), swept 0xB000 (-16384), swept 0xF003 (-32766)] =
    [32767, -14336, -32767, 0, 16383, 32256, 14336, 0, -22526] := by decide
theorem test_sweep_divider : sweepCycle 0x8034 ⟨0, 0x6000⟩ = ⟨7, 0⟩ ∧ sweepCycle 0x8034 ⟨0, 0x4000⟩ = ⟨0, 0x6000⟩ := by decide
/-- Section 6, output stage. -/
theorem test_output_stage : mainScale 100000 ⟨0x3FFF, 0⟩ = 16382 := by decide

/-! The noise generator (section 7), one cycle each. -/

/-- One noise cycle from given counters and register, for a CONTROL value. -/
def noise (control : Cell) (n1 : BitVec 16) (n2 : BitVec 8) (x : BitVec 16) : BitVec 16 × BitVec 8 × BitVec 16 :=
  let t := noiseCycle std { withReg 0xD5 control with nCnt1 := n1, nCnt2 := n2, lfsr := x }
  (t.nCnt1, t.nCnt2, t.lfsr)

theorem test_noise_N1 : noise 0xFC00 0 0 0 = (0, 0, 1) ∧ noise 0xFC00 0 0 0x07FF = (0, 0, 0x0FFE) ∧
    noise 0xFC00 0 0 0xFFE8 = (0, 0, 0xFFD1) := by decide
theorem test_noise_N3 : noise 0x3700 0x4000 0 0 = (0, 7, 0) ∧ noise 0x3700 0x4000 7 0 = (0, 6, 1) ∧
    noise 0x3700 0 6 1 = (0x4000, 6, 1) := by decide

/-! The reverb (R312 and section 9, tick 49 by hand). -/

/-- The example of R312: "wraps to the region's base". -/
theorem test_rvAddr : State.rvAddr { withReg 0xD1 0xFFC0 with rvCursor := 0x3FFF0 } 0x20 = 0x3FF10 := by decide

/-- The register set-up of V1, the cursor at the base, and the eight cells of the area after tick 48. -/
def v1State : State :=
  { ((((withReg 0xD1 0xFFFE).setReg 0xEA 1).setReg 0xEC 1).setReg 0xE2 0x4000 |>.setReg 0xE3 0x7FFF |>.setReg 0xFE 0x7FFF
      |>.setReg 0xD5 0xC085) with
    rvCursor := 0x3FFF8
    ram := [(0x3FFF8, 996), (0x3FFF9, 996), (0x3FFFA, 996), (0x3FFFB, 996), (0x3FFFC, u16 (-2000)), (0x3FFFD, u16 (-2000)),
      (0x3FFFE, u16 (-2000)), (0x3FFFF, u16 (-2000))] }

theorem test_reverb_side_V1 : (reverbSide std .left 998 v1State).1 = 995 ∧
    (reverbSide std .left 998 v1State).2.ram =
      [(0x3FFF8, u16 (-502)), (0x3FFF9, 996), (0x3FFFA, 996), (0x3FFFB, 996), (0x3FFFC, 996), (0x3FFFD, u16 (-2000)),
        (0x3FFFE, u16 (-2000)), (0x3FFFF, u16 (-2000))] := by decide +kernel

/-- A reverb read is watched (R316, R331): all cells 0, every address is the cursor, 0; the trigger there, and elsewhere. -/
theorem test_reverb_read_watched : (reflect std 0xF0 0xEA 0 (withReg 0xD5 0x0040)).irqLatch = true ∧
    (comb .left ((withReg 0xD5 0x0040).setReg 0xD2 1)).2.irqLatch = false ∧
    (allPass std 0xFA 0xE0 0xE8 0 (withReg 0xD5 0x0040)).2.irqLatch = true := by decide +kernel

/-! Register rows (section 10), one command each. -/

theorem test_wr16VLevel_B1 : ((after State.reset 0x600C00008000).voice 0).adsr.level = 0 ∧
    (after State.reset 0x600C00008000).reg 6 = 0x8000 := by decide +kernel
theorem test_rd16VLevel_B2 : answer (after State.reset 0x600C00001234) 0x200C00000000 = .half 0x1234 := by decide +kernel
theorem test_wr16VRepeat_B3 : ((after State.reset 0x600E0000FFFF).voice 0).loopIndex = 0x3FFFC ∧
    ((after State.reset 0x600E0000FFFF).voice 0).loopForce = true := by decide +kernel
theorem test_wr8_B4 : (after State.reset 0x5004000000AB).reg 2 = 0x00AB := by decide +kernel
theorem test_wr8_odd_B5 : (after (withReg 2 0x1234) 0x5005000000AB).reg 2 = 0x1234 := by decide +kernel
theorem test_rd8_B5 : answer (withReg 2 0x1234) 0x100400000000 = .byte 0x34 ∧ answer (withReg 2 0x1234) 0x100500000000 = .byte 0x12 := by
  decide +kernel
theorem test_wr32_B6 : (after State.reset 0x7006AAAA5555).reg 2 = 0x5555 ∧ (after State.reset 0x7006AAAA5555).reg 3 = 0xAAAA := by
  decide +kernel
theorem test_rd32_B6 : answer ((withReg 2 0x5555).setReg 3 0xAAAA) 0x300500000000 = .word 0xAAAA5555 := by decide +kernel
theorem test_wr16Endx_B7 : (after State.reset 0x619C0000FFFF).endx = 0 ∧ (after State.reset 0x619C0000FFFF).reg 0xCE = 0 := by
  decide +kernel
theorem test_rd16Status_B9 : answer (withReg 0xD5 0x003F) 0x21AE00000000 = .half 0x02BF ∧
    answer (withReg 0xD5 0x0020) 0x21AE00000000 = .half 0x01A0 := by decide +kernel
/-- T11: the read at capture index 256. -/
theorem test_rd16Status_T11 : answer { State.reset with capIndex := 256 } 0x21AE00000000 = .half 0x0800 := by decide +kernel
theorem test_rd16Unmapped_B13 : answer (after State.reset 0x626000001234) 0x226000000000 = .half 0 := by decide +kernel
theorem test_wr16CellD0_B14 : answer (after State.reset 0x61A00000BEEF) 0x21A000000000 = .half 0xBEEF := by decide +kernel
theorem test_wr16KonHi_B15 : (after State.reset 0x618A0000FFFF).keyOn = 0xFF0000 ∧ (after State.reset 0x618A0000FFFF).reg 0xC5 = 0xFFFF := by
  decide +kernel
/-- B17 and B18: the current level is read live, and writing it is ignored. -/
theorem test_curvol_B18 :
    answer (after (State.reset.modVoice 0 fun V => { V with volL := ⟨0x7FFE, 0⟩ }) 0x620000001111) 0x220000000000 = .half 0x7FFE := by
  decide +kernel
/-- B19: the index wraps at 18 bits. -/
theorem test_wr16XferFifo_B19 : (after { State.reset with xferIndex := 0x3FFFF } 0x61A800000004).ram = [(0x3FFFF, 4)] ∧
    (after { State.reset with xferIndex := 0x3FFFF } 0x61A800000004).xferIndex = 0 := by decide +kernel
theorem test_wr16XferAddr_B19 : (after State.reset 0x61A60000FFFF).xferIndex = 0x3FFFC := by decide +kernel
theorem test_wr32_B20 : (after State.reset 0x718800800001).keyOn = 0x800001 := by decide +kernel
theorem test_wr16KoffLo : (after { State.reset with keyOff := 4 } 0x618C00000001).keyOff = 5 := by decide +kernel
theorem test_wr16RvbBase : (after State.reset 0x61A20000FFFE).rvCursor = 0x3FFF8 := by decide +kernel

/-! Transfers and the watchdog (program P1, single steps). -/

/-- P1 before step 5: the watchdog armed at 0x400, the transfer index there. -/
def armed : State := { (withReg 0xD2 0x0100).setReg 0xD5 0x0040 with xferIndex := 0x400 }

theorem test_P1_step5 : (after armed 0x61A800001234).irqLatch = true ∧ (after armed 0x61A800001234).ram = [(0x400, 0x1234)] ∧
    (after armed 0x61A800001234).xferIndex = 0x401 := by decide +kernel
theorem test_P1_step8 : (after { armed with irqLatch := true } 0x61AA00000000).irqLatch = false := by decide +kernel
/-- P1 step 4: no check at a write of XFER_ADDR (R371). -/
theorem test_P1_step4 : (after armed 0x61A600000100).irqLatch = false := by decide +kernel
/-- The check on a write of IRQ_ADDR (R370). -/
theorem test_wr16IrqAddr_checks :
    (after { withReg 0xD5 0x0040 with xferIndex := 0x404 } 0x61A400000101).irqLatch = true := by decide +kernel
theorem test_P1_dmast : (after { armed with xferIndex := 0x402 } 0x80000BADF00D).ram = [(0x402, 0xF00D), (0x403, 0x0BAD)] ∧
    (after { armed with xferIndex := 0x402 } 0x80000BADF00D).irqLatch = false := by decide +kernel
/-- P1 step 17, with irq_index = 0x404. -/
def loaded : State := { armed.setReg 0xD2 0x0101 with xferIndex := 0x402, ram := [(0x402, 0xF00D), (0x403, 0x0BAD)] }

theorem test_P1_dmald : answer loaded 0x900000000000 = .word 0x0BADF00D ∧ (after loaded 0x900000000000).irqLatch = true ∧
    (after loaded 0x900000000000).xferIndex = 0x404 := by decide +kernel

/-! Housekeeping and the ring (section 11). -/

theorem test_nop : after State.reset 0x0FFFFFFFFFFF = State.reset := by decide +kernel
theorem test_cdin : (after State.reset 0xC00020004000).cdL = 0x4000 ∧ (after State.reset 0xC00020004000).cdR = 0x2000 := by decide +kernel
/-- RAM_INIT: a cell given in it, and one not given. -/
theorem test_ramInit : (State.resetWith { std with ramInit := [(0x3FFFF, 7), (5, 9)] }).ram = [(5, 9), (0x3FFFF, 7)] ∧
    State.reset.ram = [] := by decide +kernel
theorem test_reset : after { armed with irqLatch := true, keyOn := 7 } 0xF00000000000 = State.reset := by decide +kernel
theorem test_ringcfg_sizes :
    [0, 1, 2, 3, 10, 32, 100, 2048, 2049].map (fun n => (Ring.create n .dropOldest 0 false).size) =
    [2, 2, 2, 4, 16, 32, 128, 2048, 4096] := by decide
theorem test_ringcfg_fields : (after State.reset 0xE20000600064).ring = Ring.create 100 .halveBuffer 0x200 true := by decide +kernel

/-- The full 8-slot ring of G5 to G9. -/
def full8 (p : RingPolicy) : Ring :=
  { Ring.create 8 p 0 false with
    buf := [(0, 1), (1, u16 (-1)), (2, 2), (3, u16 (-2)), (4, 3), (5, u16 (-3)), (6, 4), (7, u16 (-4))]
    fill := 8, maxFill := 8, totalWritten := 8, avgSum := 20, avgCnt := 4 }

/-- What a row of the table shows after PUSH 9, -9: (fill, total_dropped, total_written, rd, wr, avg_sum, avg_cnt), and the queue. -/
def row (c : Config) (p : RingPolicy) : List Nat × List Int :=
  let g := ((full8 p).push c 9 (u16 (-9))).2
  ([g.fill, g.totalDropped, g.totalWritten, g.rd, g.wr, g.avgSum, g.avgCnt], g.contents.map s16)

theorem test_push_G5 : row std .dropOldest = ([8, 2, 10, 2, 2, 28, 5], [2, -2, 3, -3, 4, -4, 9, -9]) := by decide
theorem test_push_G6 : row std .dropNewest = ([8, 2, 8, 0, 0, 20, 4], [1, -1, 2, -2, 3, -3, 4, -4]) := by decide
theorem test_push_G7 : row std .halveBuffer = ([4, 6, 8, 4, 0, 20, 4], [3, -3, 4, -4]) := by decide
theorem test_push_G8 : row { std with halveAdmitsNew := true } .halveBuffer = ([6, 4, 10, 4, 2, 26, 5], [3, -3, 4, -4, 9, -9]) := by decide
theorem test_push_G9 : row std .reset = ([2, 8, 10, 0, 2, 22, 5], [9, -9]) := by decide
theorem test_push_answers : answer State.reset 0x4000FFFF0001 = .flag true ∧
    answer { State.reset with ring := full8 .reset } 0x4000FFFF0001 = .flag false := by decide +kernel
theorem test_pop : answer { State.reset with ring := full8 .reset } 0xD00000000002 = .samples [1, u16 (-1), 2, u16 (-2)] ∧
    answer State.reset 0xD00000000005 = .samples [] := by decide +kernel

/-! TICK and RESYNC (section 8, programs P2 to P4), one tick each. -/

/-- T1 before tick 2: CD volumes, main volume levels as tick 1 left them. -/
def cdState : State :=
  { (((withReg 0xD5 0xC001).setReg 0xD8 0x4000).setReg 0xD9 0x2000 |>.setReg 0xC0 0x3FFF |>.setReg 0xC1 0x3FFF) with
    mvL := ⟨32766, 0⟩, mvR := ⟨32766, 0⟩, cdL := 0x4000, cdR := 0x2000, capIndex := 1, ring := Ring.create 8 .dropOldest 0 false }

theorem test_tick_T1 : (after cdState 0xA00000000000).ring.contents.map s16 = [8191, 2047] ∧
    (after cdState 0xA00000000000).ram = [(0x001, 0x4000), (0x201, 0x2000)] ∧ (after cdState 0xA00000000000).capIndex = 2 := by
  decide +kernel

/-- P4 before tick 4: voice 1 plays noise through its envelope. -/
def noiseState : State :=
  let s := (((withReg 0xD5 0xFC00).setReg 0xCA 0x0002).setReg 13 0x001F |>.setReg 8 0x2000 |>.setReg 9 0x2000 |>.setReg 0xC0 0x3FFF
    |>.setReg 0xC1 0x3FFF)
  { (s.modVoice 1 fun V => { V with adsr := ⟨.release, 0x7FFF, 3⟩, volL := ⟨16384, 0⟩, volR := ⟨16384, 0⟩ }) with
    mvL := ⟨32766, 0⟩, mvR := ⟨32766, 0⟩, lfsr := 7, capIndex := 3, ring := Ring.create 8 .dropOldest 0 false }

theorem test_tick_P4 : (after noiseState 0xA00000000000).ring.contents.map s16 = [2, 2] ∧
    (after noiseState 0xA00000000000).ram = [(0x403, 6)] ∧ (after noiseState 0xA00000000000).lfsr = 15 := by decide +kernel

theorem test_resync : answer State.reset 0xB000000002FF = .ticks 0 ∧ (after State.reset 0xB000000002FF).resyncAcc = 767 ∧
    answer { State.reset with resyncAcc := 100 } 0xB0000000029C = .ticks 1 := by decide +kernel


/-! Witnesses: for every statement with hypotheses, values that meet them, at the boundaries of each clause. -/

theorem witness_RegisterDecodeFollowsRanges :
    [0x000, 0x0BF, 0x0C0, 0x0FF, 0x100, 0x12F, 0x130, 0x7FF].map LogReg.decode =
      [.voice 0 .volL, .voice 23 .repeatIx, .glob .mainVolL, .glob .rvbVRIN, .curVol 0 .left, .curVol 23 .right, .unmapped 0x130,
        .unmapped 0x7FF] := by decide +kernel

theorem witness_OffsetsAndRegistersAreInverse :
    (∀ h, LogReg.unmapped 0x130 = .unmapped h → 0x130 ≤ h.toNat) ∧ (∀ h, LogReg.glob .control = .unmapped h → 0x130 ≤ h.toNat) ∧
    (LogReg.voice 23 .repeatIx).storeCell = some 0xBF ∧ (LogReg.glob .mainVolL).storeCell = some 0xC0 :=
  ⟨fun _ h => LogReg.unmapped.inj h ▸ by decide, nofun, by decide, by decide⟩

theorem witness_DecodeInvertsEncode :
    [Instr.nop, .rd16 0x1AE, .wr16 0xFFF 5, .rd16Unmapped 0x130, .wr16VPitch 23 1, .ringcfg 1 .reset true 0xFFF].map Instr.wellFormed =
      [true, true, true, true, true, true] ∧
    (∀ boff, Instr.tick ≠ .rd16 boff) ∧ ∀ boff val, Instr.tick ≠ .wr16 boff val :=
  ⟨by decide, nofun, nofun⟩

theorem witness_StepRunsDecodedCommand :
    (State.reset.withFetchWord 48 0xA00000000000).port = 0xA00000000000#48 :: [] ∧ State.reset.port = [] := by decide +kernel

theorem witness_VoiceRepeatRegister : { Voice.reset with loopForce := true }.loopForce = true := rfl

theorem witness_TransferFifo : State.reset.ram.wf ∧ (5 : Nat) ≠ State.reset.xferIndex.toNat := by decide +kernel

theorem witness_DmaStoreWritesTwoCells : { State.reset with xferIndex := 0x3FFFF }.ram.wf ∧
    (1 : Nat) ≠ { State.reset with xferIndex := 0x3FFFF }.xferIndex.toNat ∧
    (1 : Nat) ≠ ({ State.reset with xferIndex := 0x3FFFF }.xferIndex.toNat + 1) % 0x40000 := by decide +kernel

theorem witness_ByteAndWordWrites : (0x1AA#12).getLsbD 0 = false ∧ (0x1AB#12).getLsbD 0 = true := by decide

theorem witness_ReadCommandsChangeNothing :
    [0x100500000000#48, 0x21AE00000000, 0x300500000000].map (fun w => w.extractLsb' 44 4) = [1#4, 2#4, 3#4] ∧
    (State.reset.withFetchWord 48 0x21AE00000000).port = 0x21AE00000000#48 :: [] := by decide +kernel

/-- Two offsets of one register, two of different ones; the last stored cell 0xFF; not STATUS, ENDX or V_LEVEL. -/
theorem witness_RegistersAreSeparate :
    (halfOff 0x000).toNat ≠ (halfOff 0x1FE).toNat ∧ (halfOff 0x000).toNat ≠ 0xD7 ∧
    (halfOff 0x1FE).toNat = (halfOff 0x1FF).toNat ∧ (halfOff 0x1FF).toNat ≤ 0xFF ∧
    ¬ ((halfOff 0x1FF).toNat < 0xC0 ∧ (halfOff 0x1FF).toNat % 8 = 6) ∧ (halfOff 0x1FF).toNat ≠ 0xCE ∧
    (halfOff 0x1FF).toNat ≠ 0xCF ∧ (halfOff 0x1FF).toNat ≠ 0xD7 := by decide

theorem witness_RingConfigCreatesEmptyRing : (0#20).toNat ≤ 2 ^ (0 + 1) ∧ (0xFFFFF#20).toNat ≤ 2 ^ (19 + 1) := by decide

/-- A full ring of two samples under a policy. -/
def full2 (p : RingPolicy) : Ring := ((Ring.create 2 p 0 false).push std 1 2).2

theorem full2_ok (p : RingPolicy) : RingOk (full2 p) := push_ok (create_ok _ _ _ _) _ _ _

/-- With room under any policy; full under each policy; both values of HALVE_ADMITS_NEW. -/
theorem witness_PushFollowsPolicy :
    (∀ p, RingOk (Ring.create 2 p 0 false) ∧ 2 ≤ (Ring.create 2 p 0 false).size - (Ring.create 2 p 0 false).fill) ∧
    (∀ p, RingOk (full2 p) ∧ (full2 p).size - (full2 p).fill < 2 ∧ (full2 p).policy = p) ∧
    std.halveAdmitsNew = false ∧ { std with halveAdmitsNew := true }.halveAdmitsNew = true :=
  ⟨fun p => ⟨create_ok _ _ _ _, by cases p <;> decide⟩, fun p => ⟨full2_ok p, by cases p <;> decide⟩, rfl, rfl⟩

theorem witness_PopTakesOldestPairs : 0 < (full2 .dropOldest).fill ∧ 7 < (full8 .dropOldest).fill := by decide

theorem witness_AverageFillSamplesStoredPushes : (Ring.create 2 .reset 0 false).avgCnt = 0 ∧ (full2 .reset).avgCnt ≠ 0 := by decide

/-- A full ring, and a step that pushes to it. -/
theorem witness_RingInvariantKept : ∃ t, RingOk { State.reset with ring := full2 .halveBuffer }.ring ∧
    step ({ State.reset with ring := full2 .halveBuffer }.withFetchWord 48 0x4000FFFF0001) = .next t :=
  ⟨_, full2_ok _, rfl⟩

theorem witness_TickFrame : State.reset.rvPhase = false ∧ { State.reset with rvPhase := true }.rvPhase = true ∧
    { State.reset with rvCursor := 0x3FFFF }.rvCursor.toNat = 0x3FFFF ∧ State.reset.rvCursor.toNat ≠ 0x3FFFF := by decide +kernel

/-- An index beside the capture cells; reverb off, or on with the area above the index; the area clear of the capture ranges. -/
theorem witness_TickWritesCaptureAndWorkingArea :
    State.reset.capIndex.toNat = 0 ∧ (State.reset.reg 0xD5).getLsbD 7 = false ∧ State.reset.ram.wf ∧
    (v1State.reg 0xD5).getLsbD 7 = true ∧ 0x3FFF7 < 4 * (v1State.reg 0xD1).toNat ∧ 0x800 ≤ 4 * (v1State.reg 0xD1).toNat ∧
    v1State.ram.wf := by decide +kernel

/-- Key-on latched with key-off and without, for voices 0 and 23; the SPU enabled and not. -/
theorem witness_KeyOnRestartsVoice :
    { State.reset with keyOn := 0x800001, keyOff := 1 }.keyOn.getLsbD (0 : VoiceId).val = true ∧
    { State.reset with keyOn := 0x800001, keyOff := 1 }.keyOn.getLsbD (23 : VoiceId).val = true := by decide

theorem witness_KeyOffAndDisableRelease :
    { State.reset with keyOff := 1 }.keyOn.getLsbD (0 : VoiceId).val = false ∧
    { State.reset with keyOff := 1 }.keyOff.getLsbD (0 : VoiceId).val = true ∧ (State.reset.reg 0xD5).getLsbD 15 = false := by
  decide +kernel

/-- The SPU enabled, voice 0 keyed off in Sustain with 11 samples decoded ahead, with and without a start delay. -/
def keyedOff (delay : Nat) : State :=
  { (withReg 0xD5 0x8000).modVoice 0 fun V =>
      { V with adsr := ⟨.sustain, 0x1234, 0x10⟩, fifo := List.replicate 11 1, startDelay := delay } with keyOff := 1 }

theorem witness_KeyOffAndDisableRelease_level :
    (keyedOff 0).keyOn.getLsbD (0 : VoiceId).val = false ∧ (keyedOff 0).keyOff.getLsbD (0 : VoiceId).val = true ∧
    ((keyedOff 0).reg 0xD5).getLsbD 15 = true ∧ 11 ≤ ((keyedOff 0).voice 0).fifo.length ∧ ((keyedOff 0).voice 0).startDelay = 0 ∧
    (keyedOff 3).keyOn.getLsbD (0 : VoiceId).val = false ∧ (keyedOff 3).keyOff.getLsbD (0 : VoiceId).val = true ∧
    ((keyedOff 3).reg 0xD5).getLsbD 15 = true ∧ 11 ≤ ((keyedOff 3).voice 0).fifo.length ∧ 0 < ((keyedOff 3).voice 0).startDelay := by
  decide +kernel

/-- R241 and R292: key-off leaves the level. -/
theorem test_keyOff_keeps_level : ((keyEvents std 0 (keyedOff 3)).voice 0).adsr = ⟨.release, 0x1234, 0⟩ := by decide +kernel

/-- R44: voice 16 is bit 0 of a mask's HI cell, voice 15 bit 15 of its LO cell. -/
theorem test_masks : (withReg 0xCB 1).noiseEn = 0x010000 ∧ (withReg 0xCA 0x8000).noiseEn = 0x008000 ∧
    (withReg 0xCD 1).revEn = 0x010000 ∧ (withReg 0xCC 0x8000).revEn = 0x008000 := by decide +kernel

theorem witness_DecodeCellReconstructs : 5 ≤ (5#4).toNat ∧ 5 ≤ (15#4).toNat ∧ (0 : Nat) < 4 ∧ (3 : Nat) < 4 ∧ (0xF7A8#16).getLsbD (4 * 0 + 3) = true ∧
    (0xF7A8#16).getLsbD (4 * 2 + 3) = false := by decide

/-- A voice inside a block with a FIFO of a given length. -/
def voiceWith (index : Index) (n : Nat) : State :=
  State.reset.modVoice 0 fun V => { V with curIndex := index, fifo := List.replicate n 1 }

theorem witness_DecoderStepFetches : std.fifoDecodeBelow = 11 ∧
    11 ≤ ((voiceWith 9 11).voice 0).fifo.length ∧
    (((voiceWith 9 10).voice 0).fifo.length < 11 ∧ ((voiceWith 9 10).voice 0).curIndex.toNat % 8 ≠ 0) ∧
    (((voiceWith 8 10).voice 0).fifo.length < 11 ∧ ((voiceWith 8 10).voice 0).curIndex.toNat % 8 = 0) := by decide +kernel

theorem witness_FifoWindow : ((voiceWith 8 14).voice 0).fifo.length ≤ 14 ∧ ((voiceWith 8 0).voice 0).fifo.length ≤ 14 ∧
    { Voice.reset with phase := 0x0FFF }.phase.toNat < 0x1000 := by decide +kernel

theorem witness_LoopActionFollowsHeader : (State.reset.voice 0).hdr.getLsbD 8 = false ∧
    ((State.reset.modVoice 0 fun V => { V with hdr := 0x0100 }).voice 0).hdr.getLsbD 8 = true := by decide +kernel

/-- Shifts 10 and 11; sustain rising and falling; levels around 0x6000; the divider just below and at the overflow (A3's cycles 1, 16). -/
theorem witness_EnvelopeCycle :
    (10 : Nat) < 11 ∧ (11 : Nat) ≤ 11 ∧ (0#32).toNat / 2 ^ 30 % 2 ^ (30 + 1 - 30) = 0 ∧
    (0x40000000#32).toNat / 2 ^ 30 % 2 ^ (30 + 1 - 30) = 1 ∧ (0x5FFF : Int) < 0x6000 ∧ (0x6000 : Int) ≤ 0x6000 ∧
    min 0xFFFF (0x7000 + divStep (adsrParams 0x1F0000FF .decay) 0x7FFF) < 0x8000 ∧
    0x8000 ≤ min 0xFFFF (0x7800 + divStep (adsrParams 0x1F0000FF .decay) 0x7FFF) := by decide +kernel

theorem witness_EnvelopeIsMonotoneAndClamped :
    ∀ st : EnvState, (Adsr.mk st 0x7FFF 0).st = st ∧ (Adsr.mk st 0x7FFF 0).level.toNat ≤ 0x7FFF := by
  intro st; cases st <;> decide

theorem witness_SweepCycle : (0x7FFF#16).getLsbD 15 = false ∧ (0x8034#16).getLsbD 15 = true ∧
    ∃ p, volConfig 0x8034 = .sweep p false ∧ min 0xFFFF (0x4000 + divStep p 0) < 0x8000 ∧ 0x8000 ≤ min 0xFFFF (0x6000 + divStep p 0) :=
  ⟨by decide, by decide, _, rfl, by decide +kernel, by decide +kernel⟩

/-- The first counter below and at its overflow; the second below and at its own. -/
theorem witness_NoiseCycle : (0 + 2 * 2 ^ 0) % 0x10000 < 0x8000 ∧ 0x8000 ≤ (0x7FFE + 2 * 2 ^ 0) % 0x10000 ∧
    (3 + 4) % 0x100 / 8 % 2 = 0 ∧ (4 + 4) % 0x100 / 8 % 2 = 1 := by decide

theorem witness_ResamplerArithmetic : (-32768 : Int) ≤ -32768 ∧ (-32768 : Int) ≤ 32767 ∧ (32767 : Int) ≤ 32767 ∧
    { Voice.reset with phase := 0x0FFF }.phase.toNat < 0x1000 ∧ (0x3FFF : Nat) ≤ 0x3FFF := by decide

/-- The write gate open, and closed. -/
theorem witness_ReflectionStage : v1State.ram.wf ∧ (v1State.reg 0xD5).getLsbD 7 = true ∧
    State.reset.ram.wf ∧ (State.reset.reg 0xD5).getLsbD 7 = false ∧ std.rvbWriteAlways = false := by decide +kernel

theorem witness_CombAndAllPassStages : v1State.ram.wf ∧ State.reset.ram.wf := by decide +kernel

theorem witness_CdBlendAndOutputStage :
    (State.reset.reg 0xD5).getLsbD 0 = false ∧
    (((withReg 0xD5 1).reg 0xD5).getLsbD 0 = true ∧ ((withReg 0xD5 1).reg 0xD5).getLsbD 2 = false) ∧
    (((withReg 0xD5 5).reg 0xD5).getLsbD 0 = true ∧ ((withReg 0xD5 5).reg 0xD5).getLsbD 2 = true) ∧
    (sat16 (-32768) = -32768 ∧ (VolUnit.mk 0x8000 0).level = 0x8000#16) ∧
    ¬ (sat16 (-32768) = -32768 ∧ (VolUnit.mk 0x7FFF 0).level = 0x8000#16) := by decide +kernel

theorem witness_WatchdogComparator :
    ((armed.reg 0xD5).getLsbD 6 = true ∧ (0x400#18).toNat = 4 * (armed.reg 0xD2).toNat) ∧
    (0x401#18).toNat ≠ 4 * (armed.reg 0xD2).toNat ∧ (State.reset.reg 0xD5).getLsbD 6 = false := by decide +kernel

/-- The latch falls by each of the five commands. -/
theorem witness_LatchFallsOnlyByAcknowledge :
    ∀ i ∈ [Instr.reset, .wr16Control 0, .wr16 0x1AB 0, .wr8 0x1AA 0, .wr32 0x1AB 0],
      ∃ t, exec i { armed with irqLatch := true } = .next t ∧ t.irqLatch = false := by
  simp only [List.forall_mem_cons, List.not_mem_nil, false_implies, implies_true, and_true]
  exact ⟨⟨_, rfl, rfl⟩, ⟨_, rfl, rfl⟩, ⟨_, rfl, rfl⟩, ⟨_, rfl, rfl⟩, ⟨_, rfl, rfl⟩⟩

theorem witness_DisabledWatchdogNeverLatches : ∃ t, exec (.wr16XferFifo 1) { State.reset with irqLatch := true } = .next t ∧
    { State.reset with irqLatch := true }.irqEn = false ∧ t.irqEn = false ∧ t.irqLatch = true :=
  ⟨_, rfl, by decide +kernel, by decide +kernel, by decide +kernel⟩

/-- A rise: voice 0 at a block start behind a loop-end header. A fall: voice 0 keyed on. -/
theorem witness_EndxChangesOnlyByLoopKeyOnReset :
    (∃ t, exec .tick (State.reset.modVoice 0 fun V => { V with hdr := 0x0100 }) = .next t ∧ t.endx.getLsbD (0 : VoiceId).val = true) ∧
    ∃ t, exec .tick { State.reset with endx := 1, keyOn := 1 } = .next t ∧ t.endx.getLsbD (0 : VoiceId).val = false :=
  ⟨⟨_, rfl, by decide +kernel⟩, ⟨_, rfl, by decide +kernel⟩⟩

/-- The invariants at reset, and a step from there: the commands TICK and XFER_FIFO. -/
theorem witness_VoiceInvariantKept : VoicesOk State.reset ∧ ∃ t, step (State.reset.withFetchWord 48 0xA00000000000) = .next t :=
  ⟨by unfold VoicesOk; decide +kernel, _, rfl⟩
theorem witness_SoundRamAndReverbCursorKept :
    (RamOk State.reset ∧ ∃ t, step (State.reset.withFetchWord 48 0x61A800000004) = .next t) ∧
    ReverbOk { withReg 0xD1 0xFFFE with rvCursor := 0x3FFFF, rvPhase := true } ∧
    ∃ t, step ({ withReg 0xD1 0xFFFE with rvCursor := 0x3FFFF, rvPhase := true }.withFetchWord 48 0xA00000000000) = .next t :=
  ⟨⟨⟨⟨List.Pairwise.nil, nofun⟩, nofun⟩, _, rfl⟩, by unfold ReverbOk; decide +kernel, _, rfl⟩
theorem witness_CountersAndReadOnlyCellsKept :
    (ResyncOk State.reset ∧ NoiseOk State.reset ∧ ReadOnlyCellsOk State.reset) ∧
    ∃ t, step (State.reset.withFetchWord 48 0xB000000002FF) = .next t :=
  ⟨by unfold ResyncOk NoiseOk ReadOnlyCellsOk; decide +kernel, _, rfl⟩

end Sys2Proof.Tests
end

section
/-!
The cells that registers store to, and the voice and cursor parts of a register write: what the statements of the state's family need
beside Laws/Encode and Laws/Access.
-/

namespace Sys2Proof

/-- A global register that stores at all stores to its own cell (R33). -/
theorem LogReg.storeCell_glob {g : GReg} {k : CellId} (h : (LogReg.glob g).storeCell = some k) : g.cell = k := by
  cases g <;> simp_all [LogReg.storeCell]

/-- The global registers without stored value are the read-only ones (R367, R375). -/
theorem LogReg.storeCell_glob_none {g : GReg} (h : (LogReg.glob g).storeCell = none) : g = .endxLo ∨ g = .endxHi ∨ g = .status := by
  cases g <;> simp_all [LogReg.storeCell]

/-- No two registers store to the same cell (R32). -/
theorem LogReg.storeCell_injective {r q : LogReg} {k : CellId} (hr : r.storeCell = some k) (hq : q.storeCell = some k) : r = q := by
  cases r with
  | voice v r =>
    obtain rfl : voiceCell v r = k := Option.some.inj hr
    cases q with
    | voice w q =>
      obtain ⟨rfl, rfl⟩ := voiceCell_injective (Option.some.inj hq)
      rfl
    | glob g => exact absurd (LogReg.storeCell_glob hq).symm (voiceCell_ne_cell v r g)
    | curVol | unmapped => exact absurd hq nofun
  | glob g =>
    obtain rfl := LogReg.storeCell_glob hr
    cases q with
    | voice w q => exact absurd (Option.some.inj hq) (voiceCell_ne_cell w q g)
    | glob f => rw [GReg.cell_injective (LogReg.storeCell_glob hq)]
    | curVol | unmapped => exact absurd hq nofun
  | curVol | unmapped => exact absurd hr nofun

/-- No register stores to the cell of a global register that has no stored value. -/
theorem LogReg.storeCell_ne_of_none {g : GReg} (hg : (LogReg.glob g).storeCell = none) (r : LogReg) : r.storeCell ≠ some g.cell := by
  intro hr
  cases r with
  | voice v r => exact voiceCell_ne_cell v r g (Option.some.inj hr)
  | glob f =>
    rw [GReg.cell_injective (LogReg.storeCell_glob hr), hg] at hr
    exact absurd hr nofun
  | curVol | unmapped => exact absurd hr nofun

/-- Every offset up to 0xFF decodes to a register that stores, the read-only ones aside (R33). -/
theorem LogReg.storeCell_decode {h : HalfOff} (hle : h.toNat ≤ 0xFF) (hlo : h.toNat ≠ 0xCE) (hhi : h.toNat ≠ 0xCF) (hst : h.toNat ≠ 0xD7) :
    ∃ k, (LogReg.decode h).storeCell = some k := by
  by_cases hv : h.toNat < 0xC0
  · rw [LogReg.decode_voice hv]
    exact ⟨_, rfl⟩
  · rw [LogReg.decode_glob (by omega) hle]
    refine Option.ne_none_iff_exists'.mp fun hn => ?_
    have hc : (GReg.ofPlace (h.toNat - 0xC0)).cell.val = h.toNat := by rw [GReg.cell_ofPlace] <;> omega
    rcases LogReg.storeCell_glob_none hn with e | e | e <;> rw [e] at hc
    · exact hlo hc.symm
    · exact hhi hc.symm
    · exact hst hc.symm

/-- The offsets of V_LEVEL registers: place 6 of a voice block (R33). -/
theorem LogReg.decode_level {h : HalfOff} {v : VoiceId} (e : LogReg.decode h = .voice v .level) : h.toNat < 0xC0 ∧ h.toNat % 8 = 6 := by
  have ho := LogReg.offset_decode h
  have hv := v.isLt
  rw [e] at ho
  rw [← ho]
  simp only [LogReg.offset, voiceCell_val, VReg.place, BitVec.toNat_ofNat]
  omega

/-- Two offsets that decode to one register are equal. -/
theorem LogReg.decode_injective {a b : HalfOff} (h : LogReg.decode a = LogReg.decode b) : a = b := by
  rw [← LogReg.offset_decode a, h, LogReg.offset_decode]

/-- Only the offset 0xD7 decodes to STATUS (R33). -/
theorem LogReg.decode_status {h : HalfOff} (e : LogReg.decode h = .glob .status) : h.toNat = 0xD7 := by
  rw [← LogReg.offset_decode h, e]
  rfl

end Sys2Proof

namespace Sys2Proof.Machine

open Sys2Proof.Safety

/-- Everything that a write of a global register other than RVB_BASE can change: no voice and not the reverb cursor (R359 to R378). -/
theorem writeGlob_frame {g : GReg} (hg : g ≠ .rvbBase) (x : Cell) (s : State) :
    writeGlob g x s =
      { s with regs := (writeGlob g x s).regs, ram := (writeGlob g x s).ram, keyOn := (writeGlob g x s).keyOn
               keyOff := (writeGlob g x s).keyOff, xferIndex := (writeGlob g x s).xferIndex
               irqLatch := (writeGlob g x s).irqLatch } := by
  cases g with
  | rvbBase => exact absurd rfl hg
  | irqAddr => rw [writeGlob, writeIrqAddr, irqCheck_eq]; rfl
  | control =>
    rw [writeGlob, writeControl]
    split
    · rw [irqCheck_eq]; rfl
    · rfl
  | xferFifo => rw [writeGlob, writeXferFifo, xferPut_frame]; rfl
  | _ => rfl

/-- A register write changes no voice record, V_LEVEL and V_REPEAT aside (R357, R358). -/
theorem writeReg_voices {r : LogReg} (hl : ∀ v, r ≠ .voice v .level) (hr : ∀ v, r ≠ .voice v .repeatIx) (x : Cell) (s : State) :
    (writeReg r x s).voices = s.voices := by
  cases r with
  | voice v r =>
    cases r with
    | level => exact absurd rfl (hl v)
    | repeatIx => exact absurd rfl (hr v)
    | _ => rfl
  | glob g =>
    by_cases hg : g = .rvbBase
    · subst hg; rfl
    · show (writeGlob g x s).voices = s.voices
      rw [writeGlob_frame hg]
  | curVol | unmapped => rfl

/-- A register write moves the reverb cursor only if it is one of RVB_BASE (R369). -/
theorem writeReg_rvCursor {r : LogReg} (h : r ≠ .glob .rvbBase) (x : Cell) (s : State) :
    (writeReg r x s).rvCursor = s.rvCursor := by
  cases r with
  | voice v r => cases r <;> rfl
  | glob g =>
    show (writeGlob g x s).rvCursor = s.rvCursor
    rw [writeGlob_frame fun e => h (e ▸ rfl)]
  | curVol | unmapped => rfl

@[simp] theorem writeReg_endx (r : LogReg) (x : Cell) (s : State) : (writeReg r x s).endx = s.endx := by rw [writeReg_frame]
@[simp] theorem writeReg_resyncAcc (r : LogReg) (x : Cell) (s : State) : (writeReg r x s).resyncAcc = s.resyncAcc := by
  rw [writeReg_frame]
@[simp] theorem writeReg_nCnt1 (r : LogReg) (x : Cell) (s : State) : (writeReg r x s).nCnt1 = s.nCnt1 := by rw [writeReg_frame]
@[simp] theorem writeReg_nCnt2 (r : LogReg) (x : Cell) (s : State) : (writeReg r x s).nCnt2 = s.nCnt2 := by rw [writeReg_frame]
@[simp] theorem writeReg_lfsr (r : LogReg) (x : Cell) (s : State) : (writeReg r x s).lfsr = s.lfsr := by rw [writeReg_frame]

/-- What a register write makes of a voice record: V_LEVEL of the voice sets the level, V_REPEAT the loop index, any other nothing. -/
theorem writeReg_voice (r : LogReg) (x : Cell) (s : State) (v : VoiceId) :
    (r = .voice v .level ∧ (writeReg r x s).voice v =
      { s.voice v with adsr := { (s.voice v).adsr with level := u16 (clamp (s16 x) 0 0x7FFF) } }) ∨
    (r = .voice v .repeatIx ∧ (writeReg r x s).voice v = { s.voice v with loopIndex := indexOf x, loopForce := true }) ∨
    (r ≠ .voice v .level ∧ r ≠ .voice v .repeatIx ∧ (writeReg r x s).voice v = s.voice v) := by
  by_cases hl : ∃ w, r = .voice w .level
  · obtain ⟨w, rfl⟩ := hl
    by_cases e : v = w
    · subst e
      exact .inl ⟨rfl, modVoice_voice_same _ _ _⟩
    · exact .inr (.inr ⟨by simp [Ne.symm e], nofun, modVoice_voice_other _ e _⟩)
  by_cases hr : ∃ w, r = .voice w .repeatIx
  · obtain ⟨w, rfl⟩ := hr
    by_cases e : v = w
    · subst e
      exact .inr (.inl ⟨rfl, modVoice_voice_same _ _ _⟩)
    · exact .inr (.inr ⟨nofun, by simp [Ne.symm e], modVoice_voice_other _ e _⟩)
  rw [not_exists] at hl hr
  refine .inr (.inr ⟨hl v, hr v, ?_⟩)
  rw [State.voice, writeReg_voices hl hr]
  rfl

/-- A register write leaves the volume units of every voice (R379). -/
theorem writeReg_vol (r : LogReg) (x : Cell) (s : State) (v : VoiceId) :
    ((writeReg r x s).voice v).volL = (s.voice v).volL ∧ ((writeReg r x s).voice v).volR = (s.voice v).volR := by
  rcases writeReg_voice r x s v with ⟨-, e⟩ | ⟨-, e⟩ | ⟨-, -, e⟩ <;> rw [e] <;> exact ⟨rfl, rfl⟩

end Sys2Proof.Machine
end

section
/-!
What every step keeps: the invariants of the voices, sound RAM, the reverb cursor, the noise generator, the read-only cells and the RESYNC
remainder, each held at reset and kept by the state changes that Laws/Keeps names.
-/

namespace Sys2Proof.Machine

open Sys2Proof.Safety

/-! The state after reset (R470). -/

@[simp] theorem reset_reg (h : CellId) : State.reset.reg h = 0#16 := by
  rw [State.reg, Vector.get_eq_getElem]
  exact Vector.getElem_replicate h.isLt

@[simp] theorem reset_voice (v : VoiceId) : State.reset.voice v = Voice.reset := by
  rw [State.voice, Vector.get_eq_getElem]
  exact Vector.getElem_replicate v.isLt

theorem voicesOk_reset : VoicesOk State.reset := fun v => by
  rw [reset_voice]
  decide

theorem ramOk_resetWith (c : Config) : RamOk (State.resetWith c) := Memory.ofCells_ok c.ramInit

theorem reverbOk_reset : ReverbOk State.reset := by
  rw [ReverbOk, State.rvBase, indexOf_toNat, reset_reg]
  exact Nat.zero_le _

theorem noiseOk_reset : NoiseOk State.reset := by
  refine ⟨?_, ?_, ?_⟩ <;> decide

theorem readOnlyCellsOk_reset : ReadOnlyCellsOk State.reset := ⟨reset_reg _, reset_reg _, reset_reg _⟩

theorem resyncOk_reset : ResyncOk State.reset := by
  show 0 < std.clockDiv
  decide

/-! Invariants that read neither sound RAM nor the latch, the transfer index, the ring, the CD latch, the port or the response. -/

/-- A state with the parts that transfers, the ring commands, CDIN and the command port change taken from another one. -/
def State.withOuter (s u : State) : State :=
  { s with ram := u.ram, irqLatch := u.irqLatch, xferIndex := u.xferIndex, ring := u.ring, cdL := u.cdL, cdR := u.cdR
           port := u.port, resp := u.resp }

theorem xferPut_outer (x : Cell) (s : State) : xferPut x s = s.withOuter (xferPut x s) := by
  rw [xferPut_frame]
  rfl

theorem irqCheck_outer (i : Index) (s : State) : irqCheck i s = s.withOuter (irqCheck i s) := by
  rw [irqCheck_eq]
  rfl

/-- An invariant that does not read those parts has five state changes to be kept by. -/
theorem keeps_of_inner {I : State → Prop} (outer : ∀ s u : State, I s → I (s.withOuter u))
    (writeReg : ∀ (r : LogReg) (x : Cell) (s : State), I s → I (writeReg r x s))
    (tick : ∀ s : State, I s → I (tick std s))
    (carry : ∀ (n : Nat) (s : State), n < std.clockDiv → I s → I { s with resyncAcc := n })
    (reset : I State.reset) : Keeps I where
  respond s r := outer s (s.respond r)
  writeReg := writeReg
  push l r s := outer s { s with ring := (s.ring.push std l r).2 }
  pop n s := outer s { s with ring := (s.ring.pop n).2 }
  ringcfg n p latency overlay s := outer s { s with ring := .create n p latency overlay }
  xferPut x s h := xferPut_outer x s ▸ outer _ _ h
  bumpXfer s := outer s (bumpXfer s)
  irqCheck i s h := irqCheck_outer i s ▸ outer _ _ h
  tick := tick
  carry := carry
  cdin l r s := outer s { s with cdL := l, cdR := r }
  reset s := outer State.reset { State.reset with port := s.port } reset
  taken s rest := outer s (s.taken rest)

/-! The voices (R50, R51). -/

/-- A level written to V_LEVEL is clamped into range (R357). -/
theorem clampedLevel_le (x : Int) : (u16 (clamp x 0 0x7FFF)).toNat ≤ 0x7FFF := by
  have hb := clamp_bounds (show (0 : Int) ≤ 0x7FFF by decide) x
  have hn := u16_toNat hb
  omega

theorem writeReg_voicesOk (r : LogReg) (x : Cell) (s : State) (h : VoicesOk s) : VoicesOk (writeReg r x s) := fun v => by
  rcases writeReg_voice r x s v with ⟨-, e⟩ | ⟨-, e⟩ | ⟨-, -, e⟩ <;> rw [e]
  · obtain ⟨⟨-, hphase, hfifo⟩, hdelay⟩ := h v
    exact ⟨⟨clampedLevel_le _, hphase, hfifo⟩, hdelay⟩
  · exact h v
  · exact h v

theorem tick_voicesOk (s : State) (h : VoicesOk s) : VoicesOk (tick std s) := fun v => by
  obtain ⟨q, -, hv, -, e, -⟩ := voicePass_own std s v
  rw [tick_voice, e, voiceCycle_state]
  exact voiceCycleState_ok rfl (hv ▸ (h v).1) (hv ▸ (h v).2)

theorem voicesOk_keeps : Keeps VoicesOk :=
  keeps_of_inner (fun _ _ h => h) writeReg_voicesOk tick_voicesOk (fun _ _ _ h => h) voicesOk_reset

/-! Sound RAM (R40, R80). -/

theorem ramOk_keeps : Keeps RamOk where
  respond _ _ h := h
  writeReg r x _ h := writeReg_ramOk r x h
  push _ _ _ h := h
  pop _ _ h := h
  ringcfg _ _ _ _ _ h := h
  xferPut x s h :=
    have k := xferPut_ramStep (P := fun _ => True) x s trivial
    ⟨k.wf h.1, k.below h.2⟩
  bumpXfer _ h := h
  irqCheck i s h :=
    have k := irqCheck_ramStep (fun _ => True) i s
    ⟨k.wf h.1, k.below h.2⟩
  tick s h := ⟨(tick_ramStep std s).wf h.1, (tick_ramStep std s).below h.2⟩
  carry _ _ _ h := h
  cdin _ _ _ h := h
  reset _ := ramOk_resetWith std
  taken _ _ h := h

/-! The reverb cursor (R313). -/

/-- A write of RVB_BASE moves the cursor to the base; no other write moves the one or the other (R369). -/
theorem writeReg_reverbOk (r : LogReg) (x : Cell) (s : State) (h : ReverbOk s) : ReverbOk (writeReg r x s) := by
  by_cases hb : r = .glob .rvbBase
  · subst hb
    have hbase : (writeReg (.glob .rvbBase) x s).reg 0xD1 = x := writeReg_reg_same rfl x s
    rw [ReverbOk, State.rvBase, hbase]
    exact le_refl _
  · have hbase : (writeReg r x s).reg 0xD1 = s.reg 0xD1 :=
      writeReg_reg_other (fun hr => hb (LogReg.storeCell_injective hr rfl)) x s
    rw [ReverbOk, State.rvBase, hbase, writeReg_rvCursor hb]
    exact h

/-- The cursor one further, below the last cell, as a number. -/
theorem cursor_succ_toNat {i : Index} (h : i ≠ 0x3FFFF#18) : (i + 1).toNat = i.toNat + 1 := by
  have hlt := i.isLt
  have hne : i.toNat ≠ 0x3FFFF := fun e => h (BitVec.eq_of_toNat_eq e)
  exact BitVec.toNat_add_of_lt (y := 1) (show i.toNat + 1 < 2 ^ 18 by omega)

theorem tick_reverbOk (s : State) (h : ReverbOk s) : ReverbOk (tick std s) := by
  rw [ReverbOk, rvBase_congr (tick_regs std s), tick_rvCursor]
  split
  · split
    · exact le_refl _
    · rename_i hne
      rw [cursor_succ_toNat hne]
      exact Nat.le_succ_of_le h
  · exact h

theorem reverbOk_keeps : Keeps ReverbOk :=
  keeps_of_inner (fun _ _ h => h) writeReg_reverbOk tick_reverbOk (fun _ _ _ h => h) reverbOk_reset

/-! The RESYNC remainder (R42, R455). -/

theorem resyncOk_keeps : Keeps ResyncOk :=
  keeps_of_inner (fun _ _ h => h) (fun r x s h => by rw [ResyncOk, writeReg_resyncAcc]; exact h)
    (fun s h => by rw [ResyncOk, tick_resyncAcc]; exact h) (fun _ _ hn _ => hn) resyncOk_reset

/-! The noise generator (R272, R273). -/

/-- A 16-bit counter whose bit 15 is clear is below 0x8000. -/
theorem lt_of_bit15_clear {n : BitVec 16} (h : n.getLsbD 15 = false) : n.toNat < 0x8000 := by
  have hlt := n.isLt
  rw [BitVec.getLsbD, Nat.testBit_eq_decide_div_mod_eq, decide_eq_false_iff_not] at h
  omega

/-- A counter below 16 whose bit 3 is clear is below 8. -/
theorem lt_of_bit3_clear {n : BitVec 8} (hn : n.toNat < 16) (h : n.getLsbD 3 = false) : n.toNat < 8 := by
  rw [BitVec.getLsbD, Nat.testBit_eq_decide_div_mod_eq, decide_eq_false_iff_not] at h
  omega

theorem noiseInc2_le (s : State) : noiseInc2 s.noiseShift s.noiseStep ≤ 8 := by
  have hstep : s.noiseStep < 4 := ((s.reg 0xD5).extractLsb' 8 2).isLt
  unfold noiseInc2
  split <;> omega

/-- The register's bits above the first are the old ones, shifted (R272). -/
theorem lfsrNext_bit_succ (c : Config) (x : BitVec 16) {i : Nat} (hi : i < 15) :
    (lfsrNext c x).getLsbD (i + 1) = x.getLsbD i := by
  have hlt : i + 1 < 16 := by omega
  rw [lfsrNext, BitVec.getLsbD_or, BitVec.getLsbD_shiftLeft, BitVec.getLsbD_append]
  simp [hlt]

/-- The register's first bit is the feedback (R272, R273). -/
theorem lfsrNext_bit_zero (c : Config) (x : BitVec 16) :
    (lfsrNext c x).getLsbD 0 = (x.getLsbD 15 ^^ x.getLsbD 12 ^^ x.getLsbD 11 ^^ x.getLsbD 10 ^^ c.noiseInvert) := by
  rw [lfsrNext, BitVec.getLsbD_or, BitVec.getLsbD_shiftLeft, BitVec.getLsbD_append]
  simp

/-- With the inverted feedback only the fixed point shifts to 0xFFFF (R273). -/
theorem eq_of_lfsrNext_eq {x : BitVec 16} (h : lfsrNext std x = 0xFFFF#16) : x = 0xFFFF#16 := by
  have ones : ∀ i, i < 16 → (0xFFFF#16).getLsbD i = true := by decide
  have low : ∀ i, i < 15 → x.getLsbD i = true := fun i hi => by
    rw [← lfsrNext_bit_succ std x hi, h]
    exact ones _ (by omega)
  have high : x.getLsbD 15 = true := by
    have feedback := lfsrNext_bit_zero std x
    rw [h, ones 0 (by omega), low 12 (by omega), low 11 (by omega), low 10 (by omega)] at feedback
    simpa [std] using feedback.symm
  refine BitVec.eq_of_getLsbD_eq fun i hi => ?_
  rw [ones i hi]
  rcases Nat.lt_or_eq_of_le (Nat.le_of_lt_succ hi) with hi | rfl
  · exact low i hi
  · exact high

/-- The second counter before its overflow test is below 16 (R271, R272). -/
theorem noiseStage2_sum_lt {s : State} (h : s.nCnt2.toNat < 8) :
    (s.nCnt2 + BitVec.ofNat 8 (noiseInc2 s.noiseShift s.noiseStep)).toNat < 16 := by
  have hinc := noiseInc2_le s
  rw [BitVec.toNat_add, BitVec.toNat_ofNat]
  omega

theorem noiseStage2_ok {s : State} (h : NoiseOk s) : NoiseOk (noiseStage2 std s) := by
  obtain ⟨h1, h2, hx⟩ := h
  have hsum := noiseStage2_sum_lt h2
  unfold noiseStage2
  simp only
  split
  · refine ⟨h1, ?_, fun e => hx (eq_of_lfsrNext_eq e)⟩
    rw [BitVec.toNat_and]
    exact Nat.lt_of_le_of_lt Nat.and_le_right (by decide)
  · exact ⟨h1, lt_of_bit3_clear hsum (Bool.eq_false_of_not_eq_true ‹_›), hx⟩

theorem noiseCycle_ok {s : State} (h : NoiseOk s) : NoiseOk (noiseCycle std s) := by
  obtain ⟨-, h2, hx⟩ := h
  unfold noiseCycle
  simp only
  split
  · exact noiseStage2_ok ⟨show (0#16).toNat < 0x8000 by decide, h2, hx⟩
  · exact ⟨lt_of_bit15_clear (Bool.eq_false_of_not_eq_true ‹_›), h2, hx⟩

theorem noiseOk_keeps : Keeps NoiseOk :=
  keeps_of_inner (fun _ _ h => h) (fun r x s h => by rw [NoiseOk, writeReg_nCnt1, writeReg_nCnt2, writeReg_lfsr]; exact h)
    (fun s h => by rw [NoiseOk, tick_nCnt1, tick_nCnt2, tick_lfsr]; exact noiseCycle_ok h) (fun _ _ _ h => h) noiseOk_reset

/-! The read-only cells (R367, R375). -/

theorem writeReg_readOnlyCellsOk (r : LogReg) (x : Cell) (s : State) (h : ReadOnlyCellsOk s) : ReadOnlyCellsOk (writeReg r x s) := by
  have kept : ∀ g : GReg, (LogReg.glob g).storeCell = none → (writeReg r x s).reg g.cell = s.reg g.cell := fun g hg =>
    writeReg_reg_other (LogReg.storeCell_ne_of_none hg r) x s
  obtain ⟨hlo, hhi, hst⟩ := h
  exact ⟨(kept .endxLo rfl).trans hlo, (kept .endxHi rfl).trans hhi, (kept .status rfl).trans hst⟩

theorem readOnlyCellsOk_keeps : Keeps ReadOnlyCellsOk :=
  keeps_of_inner (fun _ _ h => h) writeReg_readOnlyCellsOk
    (fun s h => by rw [ReadOnlyCellsOk, tick_reg, tick_reg, tick_reg]; exact h) (fun _ _ _ h => h) readOnlyCellsOk_reset

end Sys2Proof.Machine

namespace Sys2Proof.Proofs

open Sys2Proof.Machine Sys2Proof.Safety

/-- Settles O57: reset has the invariant of the voices and every state change of the commands keeps it. -/
theorem voiceInvariantKept : Obligations.VoiceInvariantKept := fun _ _ hs h => voicesOk_keeps.step h hs

/-- Settles O58: both invariants are kept by every state change of the commands. -/
theorem soundRamAndReverbCursorKept : Obligations.SoundRamAndReverbCursorKept :=
  ⟨fun _ _ hs h => ramOk_keeps.step h hs, fun _ _ hs h => reverbOk_keeps.step h hs⟩

/-- Settles O59: the three invariants are kept by every state change of the commands. -/
theorem countersAndReadOnlyCellsKept : Obligations.CountersAndReadOnlyCellsKept :=
  ⟨fun _ _ hs h => resyncOk_keeps.step h hs, fun _ _ hs h => noiseOk_keeps.step h hs,
    fun _ _ hs h => readOnlyCellsOk_keeps.step h hs⟩

/-- Settles O60: each invariant at reset, and a created ring's. -/
theorem resetHasEveryInvariant : Obligations.ResetHasEveryInvariant :=
  ⟨voicesOk_reset, ramOk_resetWith std, reverbOk_reset, create_ok _ _ _ _, noiseOk_reset, readOnlyCellsOk_reset, resyncOk_reset,
    ramOk_resetWith⟩

end Sys2Proof.Proofs
end

section
/-!
The statements on the register file and on single units: offsets and cells, reads after writes, the stored cells' rows, the tick's frame and
the window of the decode FIFO.
-/

namespace Sys2Proof.Machine

open Sys2Proof.Safety

/-! Reads after writes (R350, R381). -/

/-- A register that stores answers its cell, V_LEVEL and V_REPEAT aside (R350, R357, R358). -/
theorem readReg_cell {q : LogReg} {k : CellId} (hq : q.storeCell = some k) (hl : ∀ v, q ≠ .voice v .level)
    (hr : ∀ v, q ≠ .voice v .repeatIx) (s : State) : readReg q s = s.reg k := by
  cases q with
  | voice v r =>
    obtain rfl : voiceCell v r = k := Option.some.inj hq
    cases r with
    | level => exact absurd rfl (hl v)
    | repeatIx => exact absurd rfl (hr v)
    | _ => rfl
  | glob g =>
    obtain rfl := LogReg.storeCell_glob hq
    cases g with
    | endxLo | endxHi | status => exact absurd hq nofun
    | _ => rfl
  | curVol | unmapped => exact absurd hq nofun

/-- A write changes what no other register reads, STATUS aside (R32, R169). -/
theorem readReg_writeReg_other {q r : LogReg} (hqr : r ≠ q) (hst : q ≠ .glob .status) (x : Cell) (s : State) :
    readReg q (writeReg r x s) = readReg q s := by
  by_cases hl : ∃ v, q = .voice v .level
  · obtain ⟨v, rfl⟩ := hl
    show ((writeReg r x s).voice v).adsr.level = (s.voice v).adsr.level
    rcases writeReg_voice r x s v with ⟨e, -⟩ | ⟨-, e⟩ | ⟨-, -, e⟩
    · exact absurd e hqr
    · rw [e]
    · rw [e]
  by_cases hr : ∃ v, q = .voice v .repeatIx
  · obtain ⟨v, rfl⟩ := hr
    show ((writeReg r x s).voice v).loopIndex.extractLsb' 2 16 = (s.voice v).loopIndex.extractLsb' 2 16
    rcases writeReg_voice r x s v with ⟨-, e⟩ | ⟨e, -⟩ | ⟨-, -, e⟩
    · rw [e]
    · exact absurd e hqr
    · rw [e]
  cases hk : q.storeCell with
  | some k =>
    have hcell := readReg_cell hk (not_exists.mp hl) (not_exists.mp hr)
    rw [hcell, hcell, writeReg_reg_other fun hrk => hqr (LogReg.storeCell_injective hrk hk)]
  | none =>
    cases q with
    | voice v r => exact absurd hk nofun
    | glob g =>
      rcases LogReg.storeCell_glob_none hk with rfl | rfl | rfl
      · exact congrArg (BitVec.extractLsb' 0 16) (writeReg_endx r x s)
      · exact congrArg (fun m : Mask24 => 0#8 ++ m.extractLsb' 16 8) (writeReg_endx r x s)
      · exact absurd rfl hst
    | curVol v side =>
      obtain ⟨hL, hR⟩ := writeReg_vol r x s v
      cases side with
      | left => exact congrArg VolUnit.level hL
      | right => exact congrArg VolUnit.level hR
    | unmapped h => rfl

/-- A register that stores reads back the value written, V_LEVEL aside (R350, R358). -/
theorem readReg_writeReg_same {r : LogReg} {k : CellId} (hk : r.storeCell = some k) (hl : ∀ v, r ≠ .voice v .level) (x : Cell)
    (s : State) : readReg r (writeReg r x s) = x := by
  by_cases hr : ∃ v, r = .voice v .repeatIx
  · obtain ⟨v, rfl⟩ := hr
    show ((writeReg (.voice v .repeatIx) x s).voice v).loopIndex.extractLsb' 2 16 = x
    have e : (writeReg (.voice v .repeatIx) x s).voice v = { s.voice v with loopIndex := indexOf x, loopForce := true } :=
      modVoice_voice_same _ _ _
    rw [e]
    exact extract_high x 0#2
  · rw [readReg_cell hk hl (not_exists.mp hr), writeReg_reg_same hk]

/-! The rows of a stored cell (R350). -/

/-- The rows of a register that is no more than its cell. -/
theorem storedCell_rows (r : LogReg) {h : CellId} (hr : ∀ s, readReg r s = s.reg h := by intros; rfl)
    (hw : ∀ x s, writeReg r x s = s.setReg h x := by intros; rfl) : StoredCell (readRow r) (writeRow r) h := fun s => by
  refine ⟨?_, fun x => ⟨s.setReg h x, ?_, setReg_reg_same s h x, fun k hk => setReg_reg_other s hk x, rfl⟩⟩
  · rw [exec_readRow, hr]; rfl
  · rw [exec_writeRow, hw]

end Sys2Proof.Machine

namespace Sys2Proof.Proofs

open Sys2Proof.Machine Sys2Proof.Safety

/-- Settles O4: decoding and offsets are inverse, and registers that store have cells of their own. -/
theorem offsetsAndRegistersAreInverse : Obligations.OffsetsAndRegistersAreInverse :=
  ⟨LogReg.offset_decode, LogReg.decode_offset, fun _ _ _ => LogReg.storeCell_injective⟩

/-- Settles O24, over the registers that the two offsets decode to. -/
theorem registersAreSeparate : Obligations.RegistersAreSeparate := fun s a b x => by
  refine ⟨write16 a x s, read16 b s, read16 b (write16 a x s), rfl, rfl, rfl, fun hne hst => ?_, fun he hle hlevel hlo hhi hst => ?_⟩
  · exact readReg_writeReg_other (fun e => hne (by rw [LogReg.decode_injective e])) (fun e => hst (LogReg.decode_status e)) x s
  · obtain ⟨k, hk⟩ := LogReg.storeCell_decode hle hlo hhi hst
    have e : halfOff b = halfOff a := BitVec.eq_of_toNat_eq he
    rw [read16, write16, e]
    exact readReg_writeReg_same hk (fun v ev => hlevel (LogReg.decode_level ev)) x s

/-- Settles O33: the frame of a tick, field by field. -/
theorem tickFrame : Obligations.TickFrame := fun s => by
  refine ⟨tick std s, rfl, tick_reg std s, tick_xferIndex std s, tick_resyncAcc std s, tick_cdL std s, tick_cdR std s,
    tick_port std s, tick_resp std s, ?_, tick_keyOn std s, tick_keyOff std s, tick_rvPhase std s, fun hp => ?_, fun hp => ?_,
    tick_mvL std s, tick_mvR std s, tick_ring std s⟩
  · rw [tick_capIndex, BitVec.toNat_add]
    rfl
  · rw [tick_rvCursor, if_neg (by rw [hp]; decide)]
  · rw [tick_rvCursor, if_pos hp]
    by_cases hc : s.rvCursor = 0x3FFFF#18
    · rw [if_pos hc, if_pos (by rw [hc]; rfl)]
      exact indexOf_toNat _
    · have hn : s.rvCursor.toNat ≠ 0x3FFFF := fun e => hc (BitVec.eq_of_toNat_eq e)
      rw [if_neg hc, if_neg hn, cursor_succ_toNat hc]

/-- Settles O39: the decoder's window, and a phase and a step that are together less than five samples. -/
theorem fifoWindow : Obligations.FifoWindow := by
  refine ⟨decoderStep_window rfl, fun v fm s V hphase => ?_⟩
  have hstep := voiceStep_le v fm s
  rw [(consume_spec _ V).2.1, List.length_drop]
  omega

/-- Settles O8: each pair of rows is that of a register that is no more than its cell. -/
theorem storedCellsReadAndWrite : Obligations.StoredCellsReadAndWrite := by
  refine ⟨fun v => ⟨storedCell_rows (.voice v .volL), rfl, storedCell_rows (.voice v .volR), rfl, storedCell_rows (.voice v .pitch), rfl,
      storedCell_rows (.voice v .start), rfl, storedCell_rows (.voice v .adsrLo), rfl, storedCell_rows (.voice v .adsrHi), rfl⟩,
    ⟨storedCell_rows (.glob .mainVolL), storedCell_rows (.glob .mainVolR), storedCell_rows (.glob .rvbOutL),
      storedCell_rows (.glob .rvbOutR), storedCell_rows (.glob .fmLo), storedCell_rows (.glob .fmHi), storedCell_rows (.glob .cdVolL),
      storedCell_rows (.glob .cdVolR)⟩, ?_⟩
  exact ⟨storedCell_rows (.glob .rvbDAPF1), storedCell_rows (.glob .rvbDAPF2), storedCell_rows (.glob .rvbVIIR),
    storedCell_rows (.glob .rvbVCOMB1), storedCell_rows (.glob .rvbVCOMB2), storedCell_rows (.glob .rvbVCOMB3),
    storedCell_rows (.glob .rvbVCOMB4), storedCell_rows (.glob .rvbVWALL), storedCell_rows (.glob .rvbVAPF1),
    storedCell_rows (.glob .rvbVAPF2), storedCell_rows (.glob .rvbMLSAME), storedCell_rows (.glob .rvbMRSAME),
    storedCell_rows (.glob .rvbMLCOMB1), storedCell_rows (.glob .rvbMRCOMB1), storedCell_rows (.glob .rvbMLCOMB2),
    storedCell_rows (.glob .rvbMRCOMB2), storedCell_rows (.glob .rvbDLSAME), storedCell_rows (.glob .rvbDRSAME),
    storedCell_rows (.glob .rvbMLDIFF), storedCell_rows (.glob .rvbMRDIFF), storedCell_rows (.glob .rvbMLCOMB3),
    storedCell_rows (.glob .rvbMRCOMB3), storedCell_rows (.glob .rvbMLCOMB4), storedCell_rows (.glob .rvbMRCOMB4),
    storedCell_rows (.glob .rvbDLDIFF), storedCell_rows (.glob .rvbDRDIFF), storedCell_rows (.glob .rvbMLAPF1),
    storedCell_rows (.glob .rvbMRAPF1), storedCell_rows (.glob .rvbMLAPF2), storedCell_rows (.glob .rvbMRAPF2),
    storedCell_rows (.glob .rvbVLIN), storedCell_rows (.glob .rvbVRIN)⟩

end Sys2Proof.Proofs
end

section
/-!
The statements on sound RAM and on the command port: where a tick and a RESYNC write (R90, R485), what a reflection stage stores (R322,
R323), the register decode by ranges (R130), the step (R101) and the read commands (R84).
-/

namespace Sys2Proof.Machine

open Sys2Proof.Safety

/-! The commands that read a register (R381, R382, R384). -/

/-- A word whose op code is 1, 2 or 3 decodes to RD8, a read row or RD32 (R120). -/
theorem decode_readOp {w : CmdWord} (h : w.extractLsb' 44 4 = 1#4 ∨ w.extractLsb' 44 4 = 2#4 ∨ w.extractLsb' 44 4 = 3#4) :
    (∃ boff, decode w = .rd8 boff) ∨ (∃ r, decode w = readRow r) ∨ ∃ boff, decode w = .rd32 boff := by
  unfold decode
  rcases h with h | h | h <;> rw [h]
  · exact .inl ⟨_, rfl⟩
  · exact .inr (.inl ⟨_, rfl⟩)
  · exact .inr (.inr ⟨_, rfl⟩)

/-- A command whose op code is 1, 2 or 3 does nothing but respond (R84). -/
theorem exec_readOp {w : CmdWord} (h : w.extractLsb' 44 4 = 1#4 ∨ w.extractLsb' 44 4 = 2#4 ∨ w.extractLsb' 44 4 = 3#4) (s : State) :
    ∃ r, exec (decode w) s = .next (s.respond r) := by
  rcases decode_readOp h with ⟨boff, e⟩ | ⟨r, e⟩ | ⟨boff, e⟩ <;> rw [e]
  · exact ⟨_, rfl⟩
  · exact ⟨_, exec_readRow r s⟩
  · exact ⟨_, rfl⟩

/-! The step (R101, R120). -/

theorem step_of_port {s : State} {w : CmdWord} {rest : List CmdWord} (h : s.port = w :: rest) :
    step s = exec (decode w) (s.taken rest) := by
  unfold step
  rw [h]

theorem step_of_port_nil {s : State} (h : s.port = []) : step s = .next s := by
  unfold step
  rw [h]

theorem withFetchWord_port (s : State) (w : CmdWord) : (s.withFetchWord 48 w.toNat).port = w :: s.port := by
  have e : w.toNat % 2 ^ 48 = w.toNat := Nat.mod_eq_of_lt w.isLt
  show BitVec.ofNat 48 (w.toNat % 2 ^ 48) :: s.port = _
  rw [e, BitVec.ofNat_toNat, BitVec.setWidth_eq]

/-! The capture cells as numbers (R90). -/

/-- A capture range's base with the capture index in its low nine bits is their sum. -/
theorem captureCell_toNat {k : Nat} (hk : k < 512) (i : BitVec 9) :
    (BitVec.ofNat 18 (2 ^ 9 * k) ||| (0#9 ++ i)).toNat = 2 ^ 9 * k + i.toNat := by
  have hbase : (BitVec.ofNat 18 (2 ^ 9 * k)).toNat = 2 ^ 9 * k := by
    rw [BitVec.toNat_ofNat, Nat.mod_eq_of_lt (by omega)]
  rw [BitVec.toNat_or, hbase, BitVec.toNat_append, BitVec.toNat_ofNat, Nat.zero_mod, Nat.zero_shiftLeft, Nat.zero_or,
    Nat.two_pow_add_eq_or_of_lt i.isLt]

theorem cdLeftCell_toNat (i : BitVec 9) : (0#9 ++ i : Index).toNat = i.toNat := by
  rw [BitVec.toNat_append, BitVec.toNat_ofNat, Nat.zero_mod, Nat.zero_shiftLeft, Nat.zero_or]

theorem cdRightCell_toNat (i : BitVec 9) : (0x200#18 ||| (0#9 ++ i)).toNat = 0x200 + i.toNat :=
  captureCell_toNat (k := 1) (by decide) i

/-- The four capture cells, one in each of the ranges of 0x200 cells (R90). -/
theorem captureCell_iff (s : State) (a : Nat) :
    CaptureCell s a ↔ a = s.capIndex.toNat ∨ a = 0x200 + s.capIndex.toNat ∨ a = 0x400 + s.capIndex.toNat ∨
      a = 0x600 + s.capIndex.toNat := by
  have h2 : (0x400#18 ||| (0#9 ++ s.capIndex)).toNat = 0x400 + s.capIndex.toNat := captureCell_toNat (k := 2) (by decide) _
  have h3 : (0x600#18 ||| (0#9 ++ s.capIndex)).toNat = 0x600 + s.capIndex.toNat := captureCell_toNat (k := 3) (by decide) _
  rw [CaptureCell, cdLeftCell_toNat, cdRightCell_toNat, h2, h3]

/-- Every capture cell is below 0x800 (R90). -/
theorem captureCell_lt {s : State} {a : Nat} (h : CaptureCell s a) : a < 0x800 := by
  have hlt := s.capIndex.isLt
  rw [captureCell_iff] at h
  omega

/-- With the write gate off or below RVB_BASE a cell is not in the working area (R312, R317). -/
theorem not_rvArea {s : State} {a : Nat} (h : (s.reg 0xD5).getLsbD 7 = false ∨ a < 4 * (s.reg 0xD1).toNat) : ¬ RvArea std s a := by
  rintro ⟨hgate, hbase⟩
  have hon : (s.reg 0xD5).getLsbD 7 = true := hgate.resolve_right nofun
  have hle : 4 * (s.reg 0xD1).toNat ≤ a := indexOf_toNat (s.reg 0xD1) ▸ hbase
  rcases h with h | h
  · exact absurd (hon.symm.trans h) nofun
  · omega

/-- The CD pair in its two capture cells after the CD capture (R298). -/
theorem cdCapture_read {s : State} (h : s.ram.wf) :
    (cdCapture s).ram.read s.capIndex.toNat = s.cdL ∧ (cdCapture s).ram.read (0x200 + s.capIndex.toNat) = s.cdR := by
  have e : (cdCapture s).ram = (s.ram.write s.capIndex.toNat s.cdL).write (0x200 + s.capIndex.toNat) s.cdR := by
    simp only [cdCapture, memWrite_ram, cdLeftCell_toNat, cdRightCell_toNat]
  have hne : s.capIndex.toNat ≠ 0x200 + s.capIndex.toNat := by omega
  rw [e]
  exact ⟨(Memory.read_write_other _ hne _).trans (Memory.read_write_same h _ _), Memory.read_write_same (Memory.wf_write h _ _) _ _⟩

/-- The CD pair in its two capture cells before the reverb cycle of a tick (R280, step T5). -/
theorem tickDry_cd (c : Config) {s : State} (h : s.ram.wf) :
    (tickDry c s).ram.read s.capIndex.toNat = s.cdL ∧ (tickDry c s).ram.read (0x200 + s.capIndex.toNat) = s.cdR := by
  have hframe := voicePass_frame c s
  have hnoise := noiseCycle_frame c (voicePass c s).1
  have hcap : (noiseCycle c (voicePass c s).1).capIndex = s.capIndex := by rw [hnoise]; exact hframe.capIndex
  have hL : (noiseCycle c (voicePass c s).1).cdL = s.cdL := by rw [hnoise]; exact hframe.cdL
  have hR : (noiseCycle c (voicePass c s).1).cdR = s.cdR := by rw [hnoise]; exact hframe.cdR
  have hwf : (noiseCycle c (voicePass c s).1).ram.wf := by rw [hnoise]; exact (voicePass_ramStep c s).wf h
  have hread := cdCapture_read hwf
  rw [hcap, hL, hR] at hread
  exact hread

theorem finishTick_ram (c : Config) (l r : Int) (s : State) : (finishTick c l r s).ram = s.ram := rfl

/-- The stages of a tick from the reverb on write in the working area only (R317). -/
theorem tick_read_tickDry {c : Config} {s : State} {a : Nat} (h : ¬ RvArea c s a) :
    (tick c s).ram.read a = (tickDry c s).ram.read a := by
  have hrev := reverbCycle_ramStep c (sat16 (tickMix c s).lrev) (sat16 (tickMix c s).rrev) (tickDry c s)
  rw [RvArea.congr (tickDry_ramStep c s).regs] at hrev
  rw [tick_eq, finishTick_ram]
  exact hrev.read a h

/-- Any number of ticks write below 0x800 and in the working area only (R90, R485). -/
theorem ticks_ramStep (c : Config) (n : Nat) (s : State) : RamStep (fun a => a < 0x800 ∨ RvArea c s a) s (ticks c n s) := by
  induction n generalizing s with
  | zero => exact .refl s
  | succ n ih =>
    have hrest := ih (tick c s)
    rw [RvArea.congr (tick_regs c s)] at hrest
    exact ((tick_ramStep c s).mono fun a => Or.imp_left captureCell_lt).trans hrest

/-! The reverb's accesses (R311, R316, R317). -/

theorem rvOffset_eq (s : State) (h : CellId) : s.rvOffset h = 4 * ((s.reg h).toNat : Int) := by
  rw [State.rvOffset, indexOf_toNat, Nat.cast_mul]
  rfl

theorem rvOffset_congr {s t : State} (h : MemOnly s t) (k : CellId) : t.rvOffset k = s.rvOffset k := by
  rw [State.rvOffset, State.rvOffset, h.reg]

theorem rvRead_memOnly (off : Int) (s : State) : MemOnly s (rvRead off s).2 := irqCheck_memOnly _ _

@[simp] theorem rvRead_ram (off : Int) (s : State) : (rvRead off s).2.ram = s.ram := irqCheck_ram _ _

/-- A reverb read answers the signed cell at its address (R316). -/
theorem rvRead_value (off : Int) (s : State) : (rvRead off s).1 = (s.ramAt (s.rvAddr off)).toInt := rfl

/-- A change of the latch alone changes no later reverb read (R316). -/
theorem rvRead_value_congr {s t : State} (h : MemOnly s t) (hram : t.ram = s.ram) (off : Int) : (rvRead off t).1 = (rvRead off s).1 := by
  rw [rvRead_value, rvRead_value, State.ramAt, State.ramAt, rvAddr_congr h, hram]

/-- A reverb write of a saturated value at a stage's position is the stage's store (R317). -/
theorem rvWrite_stageStore (c : Config) (m : CellId) (x : Int) {s : State} (h : s.ram.wf) :
    StageStore c m (sat16 x) s (rvWrite c (s.rvOffset m) (sat16 x) s) := by
  rw [rvOffset_eq]
  refine ⟨fun hgate => ?_, fun hoff hc => by rw [rvWrite_off hoff hc]⟩
  have e : rvWrite c (4 * (s.reg m).toNat) (sat16 x) s = memWrite (s.rvAddr (4 * (s.reg m).toNat)) (u16 (sat16 x)) s := by
    rw [rvWrite, if_pos (by rw [Bool.or_eq_true]; exact hgate), sat16_sat16]
  rw [e]
  refine ⟨?_, fun b hb => ?_⟩
  · rw [memWrite_read_same h]
    exact s16_u16_sat16 x
  · rw [memWrite_ram]
    exact Memory.read_write_other _ hb _

/-- Reads before a stage's store do not change what it stores (R316). -/
theorem stageStore_of_reads {c : Config} {m : CellId} {x : Int} {s t u : State} (h : MemOnly s t) (hram : t.ram = s.ram)
    (hs : StageStore c m x t u) : StageStore c m x s u := by
  unfold StageStore at *
  rw [h.reg, h.reg, rvAddr_congr h, hram] at hs
  exact hs

/-- The state after the two reads of a reflection stage (R322, R323). -/
def reflectReads (d m : CellId) (s : State) : State := (rvRead (s.rvOffset m - 1) (rvRead (s.rvOffset d) s).2).2

theorem reflectReads_memOnly (d m : CellId) (s : State) : MemOnly s (reflectReads d m s) :=
  (rvRead_memOnly _ s).trans (rvRead_memOnly _ _)

theorem reflectReads_ram (d m : CellId) (s : State) : (reflectReads d m s).ram = s.ram := (rvRead_ram _ _).trans (rvRead_ram _ s)

theorem reflectReads_watched (d m : CellId) (s : State) :
    WatchedAccesses [s.rvAddr (s.rvOffset d), s.rvAddr (s.rvOffset m - 1)] s (reflectReads d m s) := by
  have hsecond := rvRead_watched (s.rvOffset m - 1) (rvRead (s.rvOffset d) s).2
  rw [rvAddr_congr (rvRead_memOnly _ s)] at hsecond
  exact watched_append (rvRead_watched (s.rvOffset d) s) hsecond

/-- The value that a reflection stage stores: the input with the delayed cell, smoothed against the old cell (R322, R323). -/
def reflectValue (d m : CellId) (x : Int) (s : State) : Int :=
  let old := (rvRead (s.rvOffset m - 1) s).1
  let t := sat16 (x + mul15 (rvRead (s.rvOffset d) s).1 (s.rvGain 0xE7))
  sat16 (old + mul15 (t - old) (s.rvGain 0xE2))

/-- A reflection stage: its reads, then the write of its value at its position. -/
theorem reflect_eq (c : Config) (d m : CellId) (x : Int) (s : State) :
    reflect c d m x s =
      rvWrite c ((reflectReads d m s).rvOffset m) (reflectValue d m x s) (reflectReads d m s) := by
  have hfirst := rvRead_memOnly (s.rvOffset d) s
  have hold := rvRead_value_congr hfirst (rvRead_ram _ s) (s.rvOffset m - 1)
  rw [rvOffset_congr (reflectReads_memOnly d m s), reflectValue, ← hold]
  rfl

/-- What a reflection stage stores (R322, R323). -/
theorem reflect_stageStore (c : Config) (d m : CellId) (x : Int) {s : State} (h : s.ram.wf) :
    StageStore c m (reflectValue d m x s) s (reflect c d m x s) := by
  have hwf : (reflectReads d m s).ram.wf := by rw [reflectReads_ram]; exact h
  rw [reflect_eq]
  exact stageStore_of_reads (reflectReads_memOnly d m s) (reflectReads_ram d m s) (rvWrite_stageStore c m _ hwf)

/-- The cells that a reflection stage accesses (R316, R317). -/
theorem reflect_watched (c : Config) (d m : CellId) (x : Int) (s : State) :
    WatchedAccesses ([s.rvAddr (s.rvOffset d), s.rvAddr (s.rvOffset m - 1)] ++ gatedCell c (s.rvOffset m) s) s
      (reflect c d m x s) := by
  have hreads := reflectReads_memOnly d m s
  have hwrite := rvWrite_watched c (s.rvOffset m) (reflectValue d m x s) (reflectReads d m s)
  rw [gatedCell_congr hreads] at hwrite
  rw [reflect_eq, rvOffset_congr hreads]
  exact watched_append (reflectReads_watched d m s) hwrite

end Sys2Proof.Machine

namespace Sys2Proof.Proofs

open Sys2Proof.Machine Sys2Proof.Safety

/-- Settles O34: the cells a tick may write, the CD capture before the reverb, and the ticks of a RESYNC. -/
theorem tickWritesCaptureAndWorkingArea : Obligations.TickWritesCaptureAndWorkingArea := by
  refine ⟨fun s a => ⟨_, rfl, fun h0 h1 h2 h3 harea => ?_⟩, fun s hwf harea => ⟨_, rfl, ?_⟩, fun n s a => ⟨_, rfl, fun hlow harea => ?_⟩⟩
  · have hcap : ¬ CaptureCell s a := by
      rw [captureCell_iff, not_or, not_or, not_or]
      exact ⟨h0, h1, h2, h3⟩
    exact (tick_ramStep std s).read a (not_or.mpr ⟨hcap, not_rvArea harea⟩)
  · have hout : ∀ a < 0x800, ¬ RvArea std s a := fun a ha => not_rvArea (harea.imp_right (Nat.lt_of_lt_of_le ha))
    have hlt := s.capIndex.isLt
    obtain ⟨hL, hR⟩ := tickDry_cd std hwf
    exact ⟨(tick_read_tickDry (hout _ (by omega))).trans hL, (tick_read_tickDry (hout _ (by omega))).trans hR⟩
  · exact (ticks_ramStep std _ { s with resyncAcc := _ }).read a (not_or.mpr ⟨Nat.not_lt.mpr hlow, not_rvArea harea⟩)

/-- Settles O47: a reflection stage is two watched reads and the gated write of its value. -/
theorem reflectionStage : Obligations.ReflectionStage := by
  refine ⟨⟨rfl, rfl, rfl, rfl, rfl, rfl, rfl, rfl⟩, rfl, fun c d m x s => ?_⟩
  have hvalue := reflect_stageStore c d m x (s := s)
  have hwatched := reflect_watched c d m x s
  simp only [reflectValue, rvRead_value, rvOffset_eq] at hvalue hwatched
  exact ⟨hvalue, hwatched⟩

/-- Settles O3, range by range. -/
theorem registerDecodeFollowsRanges : Obligations.RegisterDecodeFollowsRanges := by
  refine fun h => ⟨fun hv => ?_, fun h1 h2 => ?_, fun h1 h2 => ?_, LogReg.decode_unmapped⟩
  · exact ⟨_, _, LogReg.decode_voice hv, rfl, VReg.place_ofPlace (Nat.mod_lt _ (by decide))⟩
  · refine ⟨_, LogReg.decode_glob h1 h2, ?_⟩
    rw [GReg.cell_ofPlace (by omega)]
    omega
  · refine ⟨⟨(h.toNat - 0x100) / 2, by omega⟩, rfl, ?_⟩
    rw [LogReg.decode_curVol h1 h2]
    rcases Nat.mod_two_eq_zero_or_one h.toNat with e | e <;> rw [e] <;> rfl

/-- Settles O6: the three forms of the port. -/
theorem stepRunsDecodedCommand : Obligations.StepRunsDecodedCommand :=
  ⟨fun _ _ _ => step_of_port, fun _ => step_of_port_nil, fun s w => step_of_port (withFetchWord_port s w)⟩

/-- Settles O23: a read command does nothing but respond. -/
theorem readCommandsChangeNothing : Obligations.ReadCommandsChangeNothing := fun s w rest hport hop => by
  obtain ⟨r, hr⟩ := exec_readOp hop (s.taken rest)
  exact ⟨r, (step_of_port hport).trans hr⟩

end Sys2Proof.Proofs
end

section
/-!
The statements on the encoding: the command table (R120, R129), the round trip of decoder and encoder (R125, R130), the read-only registers
(R169, R367, R375) and the generic 16-bit accesses (R381).
-/

namespace Sys2Proof

/-! The rows of a register as words (R130). -/

/-- Registers that an offset decodes to: the unmapped ones are those at 0x130 and above (R85, R380). -/
def LogReg.Addressed (r : LogReg) : Prop := ∀ h, r = .unmapped h → 0x130 ≤ h.toNat

theorem LogReg.addressed_decode (h : HalfOff) : (LogReg.decode h).Addressed := by
  intro k e
  by_cases hv : h.toNat < 0xC0
  · exact absurd ((LogReg.decode_voice hv).symm.trans e) nofun
  by_cases hg : h.toNat ≤ 0xFF
  · exact absurd ((LogReg.decode_glob (Nat.le_of_not_lt hv) hg).symm.trans e) nofun
  by_cases hc : h.toNat < 0x130
  · exact absurd ((LogReg.decode_curVol (Nat.lt_of_not_le hg) hc).symm.trans e) nofun
  · have hu := Nat.le_of_not_lt hc
    obtain rfl := LogReg.unmapped.inj ((LogReg.decode_unmapped hu).symm.trans e)
    exact hu

/-- What makes `i` a row of the register `r` with the word `w`: it is well-formed for the registers that have an offset. -/
structure IsRow (r : LogReg) (w : CmdWord) (i : Instr) : Prop where
  encode : encode i = w
  resolve : i.resolve = i
  wellFormed : i.wellFormed = true ↔ r.Addressed

theorem addressed_unmapped (h : HalfOff) : HalfOff.isUnmapped h = true ↔ (LogReg.unmapped h).Addressed :=
  ⟨fun hw _ e => LogReg.unmapped.inj e ▸ wellFormed_unmapped hw, fun ha => decide_eq_true (ha h rfl)⟩

theorem isRow_readRow (r : LogReg) : IsRow r (encodeRead r) (readRow r) := by
  cases r with
  | voice v r => cases r <;> exact ⟨rfl, rfl, fun _ => nofun, fun _ => rfl⟩
  | glob g => cases g <;> exact ⟨rfl, rfl, fun _ => nofun, fun _ => rfl⟩
  | curVol v side => cases side <;> exact ⟨rfl, rfl, fun _ => nofun, fun _ => rfl⟩
  | unmapped h => exact ⟨rfl, rfl, addressed_unmapped h⟩

theorem isRow_writeRow (r : LogReg) (val : Cell) : IsRow r (encodeWrite r val) (writeRow r val) := by
  cases r with
  | voice v r => cases r <;> exact ⟨rfl, rfl, fun _ => nofun, fun _ => rfl⟩
  | glob g => cases g <;> exact ⟨rfl, rfl, fun _ => nofun, fun _ => rfl⟩
  | curVol v side => cases side <;> exact ⟨rfl, rfl, fun _ => nofun, fun _ => rfl⟩
  | unmapped h => exact ⟨rfl, rfl, addressed_unmapped h⟩

/-! The round trip (R120, R125, R130). -/

/-- Every well-formed instruction's word decodes to what the instruction resolves to. -/
theorem decode_encode {i : Instr} (hw : i.wellFormed = true) : decode (encode i) = i.resolve := by
  cases Machine.instrForm i with
  | reads r =>
    have row := isRow_readRow r
    rw [row.encode, row.resolve, decode_encodeRead r (row.wellFormed.mp hw)]
  | writes r val =>
    have row := isRow_writeRow r val
    rw [row.encode, row.resolve, decode_encodeWrite r val (row.wellFormed.mp hw)]
  | nop => exact Laws.RoundTrip.nop hw
  | rd8 boff => exact Laws.RoundTrip.rd8 boff hw
  | rd16 boff => exact Laws.RoundTrip.rd16 boff hw
  | rd32 boff => exact Laws.RoundTrip.rd32 boff hw
  | push l r => exact Laws.RoundTrip.push l r hw
  | wr8 boff b => exact Laws.RoundTrip.wr8 boff b hw
  | wr16 boff val => exact Laws.RoundTrip.wr16 boff val hw
  | wr32 boff w => exact Laws.RoundTrip.wr32 boff w hw
  | dmast w => exact Laws.RoundTrip.dmast w hw
  | dmald => exact Laws.RoundTrip.dmald hw
  | tick => exact Laws.RoundTrip.tick hw
  | resync cycles => exact Laws.RoundTrip.resync cycles hw
  | cdin l r => exact Laws.RoundTrip.cdin l r hw
  | pop maxPairs => exact Laws.RoundTrip.pop maxPairs hw
  | ringcfg size policy overlay latency => exact Laws.RoundTrip.ringcfg size policy overlay latency hw
  | reset => exact Laws.RoundTrip.reset hw

theorem resolve_eq_self {i : Instr} (hrd : ∀ boff, i ≠ .rd16 boff) (hwr : ∀ boff val, i ≠ .wr16 boff val) : i.resolve = i := by
  cases Machine.instrForm i with
  | reads r => exact (isRow_readRow r).resolve
  | writes r val => exact (isRow_writeRow r val).resolve
  | rd16 boff => exact absurd rfl (hrd boff)
  | wr16 boff val => exact absurd rfl (hwr boff val)
  | _ => rfl

/-- A word decodes to a well-formed instruction, RD16 and WR16 already resolved (R125). -/
theorem decode_wellFormed_resolved (w : CmdWord) : (decode w).wellFormed = true ∧ (decode w).resolve = decode w := by
  unfold decode decodeFields
  split
  case h_3 =>
    have row := isRow_readRow (LogReg.decode (halfOff (w.extractLsb' 32 12)))
    exact ⟨row.wellFormed.mpr (LogReg.addressed_decode _), row.resolve⟩
  case h_7 =>
    have row := isRow_writeRow (LogReg.decode (halfOff (w.extractLsb' 32 12))) ((w.extractLsb' 0 32).extractLsb' 0 16)
    exact ⟨row.wellFormed.mpr (LogReg.addressed_decode _), row.resolve⟩
  all_goals exact ⟨rfl, rfl⟩

end Sys2Proof

namespace Sys2Proof.Machine

/-! The bits of the read-only registers (R169, R367). -/

theorem readEndxLo_getLsbD (s : State) {i : Nat} (hi : i < 16) : (readEndxLo s).getLsbD i = s.endx.getLsbD i := by
  rw [readEndxLo, BitVec.getLsbD_extractLsb', Nat.zero_add, decide_eq_true hi, Bool.true_and]

theorem readEndxHi_getLsbD_low (s : State) {i : Nat} (hi : i < 8) : (readEndxHi s).getLsbD i = s.endx.getLsbD (16 + i) := by
  rw [readEndxHi, BitVec.getLsbD_append, if_pos hi, BitVec.getLsbD_extractLsb', decide_eq_true hi, Bool.true_and]

theorem readEndxHi_getLsbD_high (s : State) {i : Nat} (hi : 8 ≤ i) : (readEndxHi s).getLsbD i = false := by
  rw [readEndxHi, BitVec.getLsbD_append, if_neg (Nat.not_lt.mpr hi), BitVec.getLsbD_zero]

/-- STATUS shows the low six bits of CONTROL. -/
theorem statusWord_getLsbD_control (s : State) {i : Nat} (hi : i < 6) : (statusWord s).getLsbD i = (s.reg 0xD5).getLsbD i := by
  rw [statusWord, BitVec.getLsbD_append, if_pos hi, BitVec.getLsbD_extractLsb', Nat.zero_add, decide_eq_true hi, Bool.true_and]

/-- The transfer mode is CONTROL bits 5..4 as a number (R168). -/
theorem xferMode_beq (s : State) {n : Nat} (hn : n < 4) :
    (s.xferMode == n) = decide ((s.reg 0xD5).extractLsb' 4 2 = BitVec.ofNat 2 n) := by
  have htoNat : (BitVec.ofNat 2 n).toNat = n := Nat.mod_eq_of_lt hn
  rw [beq_eq_decide, decide_eq_decide, State.xferMode, field, ← BitVec.toNat_inj, htoNat]

/-- The bits of STATUS above its copy of CONTROL, from bit 6 up. -/
theorem statusWord_getLsbD_flags (s : State) :
    (statusWord s).getLsbD 6 = s.irqLatch ∧
    (statusWord s).getLsbD 7 = (s.reg 0xD5).getLsbD 5 ∧
    (statusWord s).getLsbD 8 = decide ((s.reg 0xD5).extractLsb' 4 2 = 2#2) ∧
    (statusWord s).getLsbD 9 = decide ((s.reg 0xD5).extractLsb' 4 2 = 3#2) ∧
    (statusWord s).getLsbD 10 = false ∧
    (statusWord s).getLsbD 11 = s.capIndex.getLsbD 8 := by
  have hwrite := xferMode_beq s (n := 2) (by decide)
  have hread := xferMode_beq s (n := 3) (by decide)
  simp only [statusWord, BitVec.getLsbD_append, hwrite, hread]
  simp

/-- The seven fields of STATUS below its top four bits end at bit 12. -/
theorem statusWord_getLsbD_top (s : State) {i : Nat} (hi : 12 ≤ i) : (statusWord s).getLsbD i = false := by
  rw [statusWord]
  iterate 7 rw [BitVec.getLsbD_append, if_neg (by omega)]
  exact BitVec.getLsbD_zero

end Sys2Proof.Machine

namespace Sys2Proof.Proofs

open Sys2Proof.Machine Sys2Proof.Safety

/-- Settles O5: the round trip over the forms of an instruction, and the word's side from what a word decodes to. -/
theorem decodeInvertsEncode : Obligations.DecodeInvertsEncode := by
  refine ⟨fun _ => decode_encode, fun _ => resolve_eq_self, fun _ => rfl, fun _ _ => rfl, fun w => ?_⟩
  obtain ⟨hwf, hres⟩ := decode_wellFormed_resolved w
  exact ⟨hwf, (decode_encode hwf).trans hres⟩

/-- Settles O1: each op code's word is the packing of its fields. -/
theorem commandWordsDecodeAsTabled : Obligations.CommandWordsDecodeAsTabled :=
  ⟨fun boff data =>
    ⟨decode_pack 0x0 boff data, decode_pack 0x1 boff data, decode_pack 0x2 boff data, decode_pack 0x3 boff data,
      decode_pack 0x4 boff data, decode_pack 0x5 boff data, decode_pack 0x6 boff data, decode_pack 0x7 boff data,
      decode_pack 0x8 boff data, decode_pack 0x9 boff data, decode_pack 0xA boff data, decode_pack 0xB boff data,
      decode_pack 0xC boff data, decode_pack 0xD boff data, decode_pack 0xE boff data, decode_pack 0xF boff data⟩,
    rfl, rfl, rfl, rfl⟩

/-- Settles O2: the decoder computes on the twenty fixed words. -/
theorem exampleWordsDecodeAsPrinted : Obligations.ExampleWordsDecodeAsPrinted := by
  unfold Obligations.ExampleWordsDecodeAsPrinted
  decide

/-- Settles O13, bit by bit. -/
theorem readOnlyRegisters : Obligations.ReadOnlyRegisters := by
  refine fun s x => ⟨⟨rfl, rfl, rfl⟩, ⟨_, rfl, fun _ => readEndxLo_getLsbD s⟩,
    ⟨_, rfl, fun _ => readEndxHi_getLsbD_low s, fun _ => readEndxHi_getLsbD_high s⟩,
    ⟨_, rfl, fun _ => statusWord_getLsbD_control s, ?_⟩⟩
  obtain ⟨hlatch, hcontrol, hwrite, hread, hbusy, hcap⟩ := statusWord_getLsbD_flags s
  exact ⟨hlatch, hcontrol, hwrite, hread, hbusy, hcap, fun _ => statusWord_getLsbD_top s⟩

/-- Settles O20: the generic access and the row of its register read, and write, the same register. -/
theorem genericAccessesAreTheirRows : Obligations.GenericAccessesAreTheirRows :=
  ⟨fun _ s => ⟨_, rfl, exec_readRow _ s⟩, fun _ x s => ⟨_, rfl, exec_writeRow _ x s⟩⟩

end Sys2Proof.Proofs
end

section
/-!
The statements on the ADPCM decoder and its key events: the decoding of a data cell (R192 to R199), the decoder step and the loop action
(R196, R203), a key-on across a tick (R293), and the ENDX bits over every command (R367).
-/

namespace Sys2Proof.Machine

/-! The ENDX mask over the commands (R293, R367). -/

@[simp] theorem xferPut_endx (x : Cell) (s : State) : (xferPut x s).endx = s.endx := by rw [xferPut_frame]

/-- TICK, RESYNC and RESET are the only commands that change the ENDX mask (R367). -/
theorem exec_endx {i : Instr} {s t : State} (h : exec i s = .next t) (htick : i ≠ .tick) (hresync : ∀ n, i ≠ .resync n)
    (hreset : i ≠ .reset) : t.endx = s.endx := by
  cases instrForm i with
  | reads r => rw [exec_readRow] at h; exact Host.Outcome.next.inj h ▸ rfl
  | writes r x => rw [exec_writeRow] at h; exact Host.Outcome.next.inj h ▸ writeReg_endx r x s
  | tick => exact absurd rfl htick
  | resync n => exact absurd rfl (hresync n)
  | reset => exact absurd rfl hreset
  | wr8 boff b =>
    obtain rfl := Host.Outcome.next.inj h
    split
    · rfl
    · exact writeReg_endx _ _ s
  | wr16 boff x => exact Host.Outcome.next.inj h ▸ writeReg_endx _ x s
  | wr32 => exact Host.Outcome.next.inj h ▸ (writeReg_endx _ _ _).trans (writeReg_endx _ _ s)
  | dmast => exact Host.Outcome.next.inj h ▸ (xferPut_endx _ _).trans (xferPut_endx _ s)
  | dmald => exact Host.Outcome.next.inj h ▸ (irqCheck_memOnly _ _).endx
  | _ => exact Host.Outcome.next.inj h ▸ rfl

/-- A tick clears no ENDX bit of a voice without a key-on latched (R293, R367). -/
theorem tick_endx_stays (c : Config) {s : State} {v : VoiceId} (h : s.endx.getLsbD v.val = true)
    (hk : s.keyOn.getLsbD v.val = false) : (tick c s).endx.getLsbD v.val = true := by
  obtain ⟨q, hq, -, hendx, -, e⟩ := voicePass_own c s v
  rw [tick_endx, e, voiceCycle_state]
  exact voiceCycleState_endx (hendx.trans h) (by rw [hq.keyOn]; exact hk)

/-- Ticks clear no ENDX bit of a voice without a key-on latched at their start: each tick clears the key latches (R302). -/
theorem ticks_endx_stays (c : Config) (n : Nat) {s : State} {v : VoiceId} (h : s.endx.getLsbD v.val = true)
    (hk : s.keyOn.getLsbD v.val = false) : (ticks c n s).endx.getLsbD v.val = true := by
  induction n generalizing s with
  | zero => exact h
  | succ n ih => exact ih (tick_endx_stays c h hk) (by rw [tick_keyOn, BitVec.getLsbD_zero])

/-- TICK and RESYNC clear no ENDX bit of a voice without a key-on latched (R293, R367, R455). -/
theorem exec_endx_stays {i : Instr} {s t : State} {v : VoiceId} (h : exec i s = .next t) (hi : i = .tick ∨ ∃ n, i = .resync n)
    (hset : s.endx.getLsbD v.val = true) (hk : s.keyOn.getLsbD v.val = false) : t.endx.getLsbD v.val = true := by
  rcases hi with rfl | ⟨n, rfl⟩
  · obtain rfl := Host.Outcome.next.inj h
    exact tick_endx_stays std hset hk
  · obtain rfl := Host.Outcome.next.inj h
    exact ticks_endx_stays std _ (s := { s with resyncAcc := _ }) hset hk

/-! A key-on in its voice's cycle (R293). -/

@[simp] theorem disableMute_endx (v : VoiceId) (s : State) : (disableMute v s).endx = s.endx := by
  unfold disableMute
  split <;> rfl

/-- The ENDX bit of a voice that is keyed on is clear after its cycle (R293). -/
theorem voiceCycleState_endx_keyOn {c : Config} {fm : Int} {v : VoiceId} {s : State} (h : s.keyOn.getLsbD v.val = true) :
    (voiceCycleState c fm v s).endx.getLsbD v.val = false := by
  rw [voiceCycleState_eq, disableMute_endx, keyEvents_endx, (voiceMid_voiceStep c fm v s).pass.keyOn, h, Bool.not_true, Bool.and_false]

/-! The loop action and the decoder step (R196, R203). -/

theorem releaseAndMute_setEndx (v : VoiceId) (s : State) : releaseAndMute v (setEndx v s) = setEndx v (releaseAndMute v s) := rfl

/-- The loop action on a loop-end header, repeat bit set or clear, as one change of its voice and its ENDX bit (R203, R204). -/
theorem loopAction_eq {v : VoiceId} {s : State} (h : (s.voice v).hdr.getLsbD 8 = true) :
    loopAction v s = setEndx v (s.modVoice v fun V =>
      { V with curIndex := alignDown8 V.loopIndex, adsr := if V.hdr.getLsbD 9 then V.adsr else adsrMute V.adsr }) := by
  cases hr : (s.voice v).hdr.getLsbD 9 with
  | true =>
    rw [loopAction_repeat h hr]
    exact congrArg (setEndx v) (modVoice_congr (by rw [hr]; rfl))
  | false =>
    rw [loopAction_stop h hr, releaseAndMute_setEndx, releaseAndMute, modVoice_modVoice]
    exact congrArg (setEndx v) (modVoice_congr (by rw [hr]; rfl))

/-- The loop action changes voices and ENDX bits only (R203, R204). -/
theorem loopAction_frame (v : VoiceId) (s : State) :
    loopAction v s = { s with voices := (loopAction v s).voices, endx := (loopAction v s).endx } := by
  cases h : hdrLoopEnd (s.voice v).hdr with
  | false => rw [loopAction_none h]
  | true => rw [loopAction_eq h]; rfl

/-- The loop action leaves the watchdog and the cells of sound RAM. -/
theorem loopAction_watchdog (v : VoiceId) (s : State) :
    (loopAction v s).irqLatch = s.irqLatch ∧ (loopAction v s).irqEn = s.irqEn ∧ (loopAction v s).irqIndex = s.irqIndex ∧
    ∀ i, (loopAction v s).ramAt i = s.ramAt i := by
  rw [loopAction_frame]
  exact ⟨rfl, rfl, rfl, fun _ => rfl⟩

/-- A fetched header and the data cell after it, as one change of the voice (R196, R200). -/
theorem fetchData_fetchHeader (c : Config) (v : VoiceId) (s : State) :
    fetchData c v (fetchHeader v s) = s.modVoice v fun V =>
      let i := (s.voice v).curIndex
      decodeCell c (s.ramAt (i + 1))
        { V with hdr := s.ramAt i, curIndex := i + 1 + 1
                 loopIndex := if (s.ramAt i).getLsbD 10 && !V.loopForce then i else V.loopIndex } := by
  rw [fetchHeader_eq, fetchData_modVoice]
  exact modVoice_congr rfl

/-- A block starts at an index divisible by 8 (R190). -/
theorem atBlockStart_iff (V : Voice) : atBlockStart V = true ↔ V.curIndex.toNat % 8 = 0 := by
  rw [atBlockStart, beq_iff_eq, ← BitVec.toNat_inj, BitVec.extractLsb'_toNat, Nat.shiftRight_zero]
  rfl

/-! The decoding of a data cell (R192 to R199). -/

/-- The reconstructed sample is stored without loss (R195). -/
theorem predict_toInt (c : Config) (hdr : Cell) (hist0 hist1 : Sample) (t : Int) :
    (u16 (predict c hdr hist0 hist1 t)).toInt =
      sat16 (t + hist0.toInt * (c.weights (hdr.extractLsb' 4 4)).1 / 64 + hist1.toInt * (c.weights (hdr.extractLsb' 4 4)).2 / 64) :=
  s16_u16_sat16 _

/-- The shift and the cell after the shift clamp, each by itself (R193). -/
theorem shiftClamp_eq (shift : Nat) (w : Cell) :
    shiftClamp shift w = (if 12 < shift then 8 else shift, if 12 < shift then w &&& 0x8888#16 else w) := by
  unfold shiftClamp
  split <;> rfl

/-- A code of which the mask 0x8888 keeps the sign only (R193). -/
theorem signOnly_code (w : Cell) {j : Nat} (hj : j < 4) :
    (w &&& 0x8888#16).extractLsb' (4 * j) 4 = if w.getLsbD (4 * j + 3) then 8#4 else 0#4 := by
  have hmask : ∀ j < 4, (0x8888#16).extractLsb' (4 * j) 4 = 8#4 := by decide
  have hcode : ∀ x : BitVec 4, x &&& 8#4 = if x.getLsbD 3 then 8#4 else 0#4 := by decide
  rw [BitVec.extractLsb'_and, hmask j hj, hcode, BitVec.getLsbD_extractLsb']
  rfl

end Sys2Proof.Machine

namespace Sys2Proof.Proofs

open Sys2Proof.Machine Sys2Proof.Safety

/-- Settles O54: by the three commands that change the mask at all; a tick clears a bit only by a key-on, and RESET sets none. -/
theorem endxChangesOnlyByLoopKeyOnReset : Obligations.EndxChangesOnlyByLoopKeyOnReset := by
  intro i s t v h
  by_cases hi : i = .tick ∨ ∃ n, i = .resync n
  · refine ⟨fun _ _ => hi, fun hset hclear => .inr ⟨?_, hi⟩⟩
    by_contra hk
    rw [exec_endx_stays h hi hset (Bool.eq_false_of_not_eq_true hk)] at hclear
    exact Bool.noConfusion hclear
  · obtain ⟨htick, hresync⟩ := not_or.mp hi
    by_cases hr : i = .reset
    · subst hr
      obtain rfl := Host.Outcome.next.inj h
      exact ⟨fun _ hset => Bool.noConfusion (BitVec.getLsbD_zero.symm.trans hset), fun _ _ => .inl rfl⟩
    · rw [exec_endx h htick (not_exists.mp hresync) hr]
      exact ⟨fun hclear hset => Bool.noConfusion (hclear.symm.trans hset), fun hset hclear => Bool.noConfusion (hset.symm.trans hclear)⟩

/-- Settles O35: the pass leaves of the voice what its own cycle makes of it, and that cycle restarts a voice keyed on. -/
theorem keyOnRestartsVoice : Obligations.KeyOnRestartsVoice := by
  refine fun s v hk => ⟨tick std s, rfl, ?_⟩
  obtain ⟨q, hq, hvoice, -, ev, ee⟩ := voicePass_own std s v
  have hkq : q.1.keyOn.getLsbD v.val = true := by rw [hq.keyOn]; exact hk
  obtain ⟨W, -, hW⟩ := voiceCycleState_keyOn (c := std) (fm := q.2.fmPrev) hkq
  obtain ⟨hL, hR⟩ := voiceCycleState_vol std q.2.fmPrev v q.1
  have hreg : ∀ r, q.1.voiceReg v r = s.voiceReg v r := fun r => hq.reg _
  rw [tick_voice, tick_endx, ev, ee, voiceCycle_state, hL, hR, hW, hq.spuEnable, startIndex_congr hq.regs, hvoice, hreg, hreg]
  refine ⟨rfl, rfl, ?_, rfl, rfl, rfl, rfl, rfl, rfl, voiceCycleState_endx_keyOn hkq, rfl, rfl⟩
  exact (alignDown8_toNat _).trans (by rw [State.startIndex, indexOf_toNat]; rfl)

/-- Settles O37: four reconstructions, each over the history that the one before left. -/
theorem decodeCellReconstructs : Obligations.DecodeCellReconstructs := by
  refine ⟨by decide, fun c w V => ?_, fun w j hj => ?_⟩
  · intro shift w1 k code wt next
    have hclamp : shiftClamp (hdrShift V.hdr) w = (k, w1) := shiftClamp_eq _ _
    refine ⟨_, _, _, _, predict_toInt c V.hdr V.hist0 V.hist1 _, predict_toInt c V.hdr _ V.hist0 _,
      predict_toInt c V.hdr _ _ _, predict_toInt c V.hdr _ _ _, ?_⟩
    unfold decodeCell
    simp only [hclamp, reconstruct_spec, List.append_assoc]
    rfl
  · rw [signOnly_code w hj]
    split <;> rfl

/-- Settles O38: the three forms of a decoder step, its checks taken together. -/
theorem decoderStepFetches : Obligations.DecoderStepFetches := by
  refine ⟨rfl, fun c v s hc => ⟨fun hlen => ?_, fun hlen hblock => ?_, fun hlen hblock => ?_⟩⟩
  · rw [decoderStep_ahead (hc ▸ hlen), decoderCheck_eq]
    rfl
  · rw [decoderStep_inside (by omega) (fun h => hblock ((atBlockStart_iff _).mp h)), decoderCheck_eq]
    rfl
  · intro s1 i h
    obtain ⟨hlatch, hen, hindex, hram⟩ := loopAction_watchdog v s
    rw [decoderStep_block (by omega) ((atBlockStart_iff _).mpr hblock), fetchData_fetchHeader, decoderCheck_eq]
    simp only [h, ← hlatch, ← hen, ← hindex, ← hram]
    rfl

/-- Settles O40: the change of the voice and of its ENDX bit, by the loop-end bit. -/
theorem loopActionFollowsHeader : Obligations.LoopActionFollowsHeader := by
  refine fun v s => ⟨loopAction_none, fun hend => ?_⟩
  have hstep := loopAction_voiceStep v s
  have hvoice : (loopAction v s).voice v =
      { s.voice v with
        curIndex := alignDown8 (s.voice v).loopIndex
        adsr := if (s.voice v).hdr.getLsbD 9 then (s.voice v).adsr else adsrMute (s.voice v).adsr } := by
    rw [loopAction_eq hend, setEndx_voice, modVoice_voice_same]
  refine ⟨?_, ?_, ?_, fun w hw => ⟨hstep.others w hw, hstep.endxOthers w hw⟩, loopAction_frame v s⟩
  · rw [hvoice]
    exact alignDown8_toNat _
  · rw [hvoice]
    rfl
  · rw [loopAction_eq hend, setEndx_endx, BitVec.getLsbD_or, voiceBit_same, Bool.or_true]

end Sys2Proof.Proofs
end

section
/-!
The statement on the resampler: the interpolation over four samples, the phase increment and the consumption (R212, R214, R216).
-/

namespace Sys2Proof.Machine

/-- The FM mask is the mask of its two cells without voice 0's bit (R44, R214). -/
theorem fmEn_voiceBit (s : State) (v : VoiceId) :
    s.fmEn.getLsbD v.val =
      (decide (v ≠ 0) && if v.val < 16 then (s.reg 0xC8).getLsbD v.val else (s.reg 0xC9).getLsbD (v.val - 16)) := by
  have hnotVoice0 : ∀ w : VoiceId, (~~~1#24).getLsbD w.val = decide (w ≠ 0) := by decide
  rw [State.fmEn, BitVec.getLsbD_and, hnotVoice0, mask24_voiceBit, Bool.and_comm]

/-- A modulating sample of 16 bits leaves the pitch's factor, and so the modulated pitch, non-negative (R214). -/
theorem modulate_eq (p : Nat) {fm : Int} (h : -32768 ≤ fm) : (modulate p fm : Int) = p * (fm + 0x8000) / 2 ^ 15 := by
  have hprod : 0 ≤ (p : Int) * (fm + 0x8000) := Int.mul_nonneg (Int.natCast_nonneg p) (by omega)
  exact Int.toNat_of_nonneg (Int.ediv_nonneg hprod (by norm_num))

/-- Consumption from a 12-bit phase by a step of at most 0x3FFF drops the whole samples without wrap-around: four at most (R216). -/
theorem consume_fifo {step : Nat} {V : Voice} (hphase : V.phase.toNat < 0x1000) (hstep : step ≤ 0x3FFF) :
    (consume step V).fifo = V.fifo.drop ((V.phase.toNat + step) / 0x1000) := by
  rw [(consume_spec step V).2.1, Nat.mod_eq_of_lt (by omega)]

end Sys2Proof.Machine

namespace Sys2Proof.Proofs

open Sys2Proof.Machine

/-- Settles O45: the interpolation is its four taps, the step its two cases by the voice's FM bit, and no consumption wraps around. -/
theorem resamplerArithmetic : Obligations.ResamplerArithmetic := by
  refine ⟨fun c V => ?_, fun v fm s hfm _ => ?_, fun step V hphase hstep => ?_⟩
  · simp only [interpolate, tap_eq]
    rfl
  · intro on p
    have hon : s.fmEn.getLsbD v.val = on := fmEn_voiceBit s v
    rw [voiceStep, hon, Nat.cast_min]
    cases on with
    | true => exact congrArg (min · 0x3FFF) (modulate_eq _ hfm)
    | false => rfl
  · obtain ⟨hp, -, hframe⟩ := consume_spec step V
    exact ⟨hp, consume_fifo hphase hstep, hframe⟩

end Sys2Proof.Proofs
end

section
/-!
The statements on the envelope generator: its parameters and one cycle (R227 to R232), the order of its states (R226, R244), and a key-off
or a disabled SPU across a tick (R241, R292, R294).
-/

namespace Sys2Proof.Machine

/-! Configuration fields as numbers (R162). -/

/-- A field is a quotient's remainder. -/
theorem field_eq {w : Nat} (v : BitVec w) (lo n : Nat) : field v lo n = v.toNat / 2 ^ lo % 2 ^ n := by
  rw [field, BitVec.extractLsb'_toNat, Nat.shiftRight_eq_div_pow]

/-- A bit is a field of width 1. -/
theorem getLsbD_eq_field {w : Nat} (v : BitVec w) (i : Nat) : v.getLsbD i = decide (field v i 1 = 1) := by
  rw [field_eq]
  exact Nat.testBit_eq_decide_div_mod_eq

/-! Parameter sets (R228). -/

/-- A rising set: the bit that makes it SmoothUp changes its mode only. -/
theorem smoothUpParams_or_linearParams (b : Prop) [Decidable b] (shift : Nat) (step : Int) :
    (if b then smoothUpParams shift step else linearParams shift step) =
      { d := (steps shift step).1, l := (steps shift step).2
        mode := if b then .smoothUp (steps (shift + 2) step).1 (steps (shift + 2) step).2 else .linear } := by
  split <;> rfl

/-- A falling set: the bit that makes it exponential changes its mode only. -/
theorem expParams_or_linearParams (b : Prop) [Decidable b] (shift : Nat) (step : Int) :
    (if b then expParams shift step else linearParams shift step) =
      { d := (steps shift step).1, l := (steps shift step).2, mode := if b then .exponential else .linear } := by
  split <;> rfl

theorem adsrParams_attack (cfg : BitVec 32) :
    adsrParams cfg .attack =
      if field cfg 15 1 = 1 then smoothUpParams (field cfg 10 5) (7 - field cfg 8 2)
      else linearParams (field cfg 10 5) (7 - field cfg 8 2) := by
  rw [adsrParams, getLsbD_eq_field]
  simp only [decide_eq_true_eq]

theorem adsrParams_sustain_rising {cfg : BitVec 32} (h : field cfg 30 1 = 0) :
    adsrParams cfg .sustain =
      if field cfg 31 1 = 1 then smoothUpParams (field cfg 24 5) (7 - field cfg 22 2)
      else linearParams (field cfg 24 5) (7 - field cfg 22 2) := by
  rw [adsrParams, getLsbD_eq_field, getLsbD_eq_field, h]
  simp only [decide_eq_true_eq, zero_ne_one, if_false]

theorem adsrParams_sustain_falling {cfg : BitVec 32} (h : field cfg 30 1 = 1) :
    adsrParams cfg .sustain =
      if field cfg 31 1 = 1 then expParams (field cfg 24 5) (-8 + field cfg 22 2)
      else linearParams (field cfg 24 5) (-8 + field cfg 22 2) := by
  rw [adsrParams, getLsbD_eq_field, getLsbD_eq_field, h]
  simp only [decide_eq_true_eq, if_true]

theorem adsrParams_release (cfg : BitVec 32) :
    adsrParams cfg .release =
      if field cfg 21 1 = 1 then expParams (field cfg 16 5) (-8) else linearParams (field cfg 16 5) (-8) := by
  rw [adsrParams, getLsbD_eq_field]
  simp only [decide_eq_true_eq]

/-! One cycle (R226, R232). -/

/-- The divider's saturated sum in an envelope cycle (R232). -/
def adsrDividerSum (cfg : BitVec 32) (A : Adsr) : Nat := min 0xFFFF (A.divider.toNat + divStep (adsrParams cfg A.st) (s16 A.level))

/-- The level that an envelope cycle takes when its divider overflows (R232). -/
def adsrNewLevel (cfg : BitVec 32) (A : Adsr) : Int := clamp (s16 A.level + lvlStep (adsrParams cfg A.st) (s16 A.level)) 0 0x7FFF

theorem adsrTick_waits {cfg : BitVec 32} {A : Adsr} (h : adsrDividerSum cfg A < 0x8000) :
    adsrTick cfg A = { A with divider := BitVec.ofNat 16 (adsrDividerSum cfg A) } := if_pos h

theorem adsrTick_steps {cfg : BitVec 32} {A : Adsr} (h : 0x8000 ≤ adsrDividerSum cfg A) :
    adsrTick cfg A =
      { st := adsrNextState cfg A.st (adsrNewLevel cfg A), level := u16 (adsrNewLevel cfg A)
        divider := BitVec.ofNat 16 (adsrDividerSum cfg A - 0x8000) } := if_neg (Nat.not_lt.mpr h)

theorem adsrNewLevel_bounds (cfg : BitVec 32) (A : Adsr) : 0 ≤ adsrNewLevel cfg A ∧ adsrNewLevel cfg A ≤ 0x7FFF :=
  clamp_bounds (by norm_num) _

theorem adsrNewLevel_toNat (cfg : BitVec 32) (A : Adsr) : ((u16 (adsrNewLevel cfg A)).toNat : Int) = adsrNewLevel cfg A :=
  u16_toNat (adsrNewLevel_bounds cfg A)

theorem adsrNewLevel_toInt (cfg : BitVec 32) (A : Adsr) : (u16 (adsrNewLevel cfg A)).toInt = adsrNewLevel cfg A := by
  have hbounds := adsrNewLevel_bounds cfg A
  exact s16_u16 (by omega)

/-- The overflowed divider keeps its remainder (R232). -/
theorem adsrDividerSum_remainder (cfg : BitVec 32) (A : Adsr) :
    (BitVec.ofNat 16 (adsrDividerSum cfg A - 0x8000)).toNat = adsrDividerSum cfg A - 0x8000 := by
  have hsat : adsrDividerSum cfg A ≤ 0xFFFF := Nat.min_le_left ..
  rw [BitVec.toNat_ofNat, Nat.mod_eq_of_lt (by omega)]

/-- The sustain threshold, computed in naturals (R230). -/
theorem sustainLevel_eq (cfg : BitVec 32) : sustainLevel cfg = (min 0x7FFF (((cfg.extractLsb' 0 4).toNat + 1) * 0x800) : Nat) := by
  rw [Nat.cast_min]
  rfl

/-- The two automatic transitions, as one choice (R226). -/
theorem adsrNextState_eq (cfg : BitVec 32) (st : EnvState) (new : Int) :
    adsrNextState cfg st new =
      if st = .attack ∧ new = 0x7FFF then .decay else if st = .decay ∧ new ≤ sustainLevel cfg then .sustain else st := by
  cases st <;> simp [adsrNextState]

/-- Attack's new level is at least the old one: its step is positive, and the cap is at least a level in range (R244). -/
theorem adsrNewLevel_attack_ge (cfg : BitVec 32) {A : Adsr} (hst : A.st = .attack) (hle : A.level.toNat ≤ 0x7FFF) :
    (A.level.toNat : Int) ≤ adsrNewLevel cfg A := by
  have hstep := attack_lvlStep_pos cfg A.level.toNat
  rw [adsrNewLevel, hst, s16_of_le hle, clamp]
  omega

/-- A cycle in Attack (R226, R244). -/
theorem adsrTick_attack (cfg : BitVec 32) {A : Adsr} (hst : A.st = .attack) (hle : A.level.toNat ≤ 0x7FFF) :
    A.level.toNat ≤ (adsrTick cfg A).level.toNat ∧
      ((adsrTick cfg A).st = .attack ∨ ((adsrTick cfg A).st = .decay ∧ (adsrTick cfg A).level = 0x7FFF#16)) := by
  rcases Nat.lt_or_ge (adsrDividerSum cfg A) 0x8000 with hd | hd
  · rw [adsrTick_waits hd]
    exact ⟨le_rfl, .inl hst⟩
  · have hge := adsrNewLevel_attack_ge cfg hst hle
    rw [← adsrNewLevel_toNat, Int.ofNat_le] at hge
    rw [adsrTick_steps hd, hst]
    refine ⟨hge, ?_⟩
    by_cases hcap : adsrNewLevel cfg A = 0x7FFF
    · exact .inr ⟨if_pos hcap, congrArg u16 hcap⟩
    · exact .inl (if_neg hcap)

/-- A cycle in Decay (R226, R244). -/
theorem adsrTick_decay (cfg : BitVec 32) {A : Adsr} (hst : A.st = .decay) :
    (adsrTick cfg A).st = .sustain ∨
      ((adsrTick cfg A).st = .decay ∧
        ((adsrTick cfg A).level ≠ A.level → sustainLevel cfg < ((adsrTick cfg A).level.toNat : Int))) := by
  rcases Nat.lt_or_ge (adsrDividerSum cfg A) 0x8000 with hd | hd
  · rw [adsrTick_waits hd]
    exact .inr ⟨hst, fun hmoved => absurd rfl hmoved⟩
  · rw [adsrTick_steps hd, hst, adsrNewLevel_toNat]
    by_cases hlow : adsrNewLevel cfg A ≤ sustainLevel cfg
    · exact .inl (if_pos hlow)
    · exact .inr ⟨if_neg hlow, fun _ => not_le.mp hlow⟩

/-- Sustain and Release are never left by a cycle (R226). -/
theorem adsrTick_st_held (cfg : BitVec 32) {A : Adsr} (hst : A.st = .sustain ∨ A.st = .release) : (adsrTick cfg A).st = A.st := by
  rcases Nat.lt_or_ge (adsrDividerSum cfg A) 0x8000 with hd | hd
  · rw [adsrTick_waits hd]
  · rw [adsrTick_steps hd]
    rcases hst with hst | hst <;> rw [hst] <;> rfl

/-! The envelope in its voice's cycle (R290, R292). -/

theorem adsrCfg_congr {s t : State} (h : t.regs = s.regs) (v : VoiceId) : t.adsrCfg v = s.adsrCfg v := by
  simp only [State.adsrCfg, State.voiceReg, State.reg, h]

/-- The envelope stands while a start delay runs, and else takes one cycle (R290). -/
theorem advanceVoice_adsr (v : VoiceId) (fm : Int) (s : State) :
    ((advanceVoice v fm s).voice v).adsr =
      if 0 < (s.voice v).startDelay then (s.voice v).adsr else adsrTick (s.adsrCfg v) (s.voice v).adsr := by
  rw [advanceVoice_voice]
  split <;> rfl

/-- With enough samples decoded ahead, the envelope before the key events is what R290 makes of the old one. -/
theorem voiceMid_adsr_ahead {c : Config} {v : VoiceId} {s : State} (h : c.fifoDecodeBelow ≤ (s.voice v).fifo.length) (fm : Int) :
    ((voiceMid c fm v s).voice v).adsr =
      if 0 < (s.voice v).startDelay then (s.voice v).adsr else adsrTick (s.adsrCfg v) (s.voice v).adsr := by
  have hdecoder : (decoderStep c v s).voice v = s.voice v := by
    rw [decoderStep_ahead h]
    exact (decoderCheck_memOnly _ _).voice v
  have hregs : ∀ e, (sweepVoice v (voiceCapture v e (decoderStep c v s))).regs = s.regs := fun e =>
    ((decoderStep_voiceStep c v s).pass.trans (VoiceStep.of_memOnly v (voiceCapture_memOnly v e _)).pass).regs
  rw [voiceMid, advanceVoice_adsr, adsrCfg_congr (hregs _), sweepVoice_voice, voiceCapture_voice, hdecoder]

end Sys2Proof.Machine

namespace Sys2Proof.Proofs

open Sys2Proof.Machine

/-- Settles O41: the parameters state by state, then a cycle by whether its divider overflows. -/
theorem envelopeCycle : Obligations.EnvelopeCycle := by
  refine ⟨fun shift step => ⟨fun h => if_pos h, fun h => if_neg (Nat.not_lt.mpr h)⟩, fun cfg => ?_, fun d d2 l l2 level => ?_,
    fun cfg A => ⟨adsrTick_waits, fun hd => ?_⟩⟩
  · intro f _ _
    have hf : ∀ hi lo, f hi lo = field cfg lo (hi + 1 - lo) := fun hi lo => (field_eq cfg lo _).symm
    simp only [hf]
    refine ⟨?_, rfl, fun hrise => ?_, fun hfall => ?_, ?_⟩
    · rw [adsrParams_attack, smoothUpParams_or_linearParams]
    · rw [adsrParams_sustain_rising hrise, smoothUpParams_or_linearParams]
    · rw [adsrParams_sustain_falling hfall, expParams_or_linearParams]
    · rw [adsrParams_release, expParams_or_linearParams]
  · exact ⟨rfl, rfl, rfl, rfl, fun h => ⟨if_neg (not_le.mpr h), if_neg (not_le.mpr h)⟩, fun h => ⟨if_pos h, if_pos h⟩⟩
  · rw [adsrTick_steps hd, ← sustainLevel_eq]
    exact ⟨adsrDividerSum_remainder cfg A, adsrNewLevel_toInt cfg A, adsrNextState_eq cfg A.st (adsrNewLevel cfg A)⟩

/-- Settles O42: state by state, with the level's bound from the clamp. -/
theorem envelopeIsMonotoneAndClamped : Obligations.EnvelopeIsMonotoneAndClamped := fun cfg _ hle =>
  ⟨fun hst => adsrTick_attack cfg hst hle, adsrTick_decay cfg, fun hst => (adsrTick_st_held cfg (.inl hst)).trans hst,
    fun hst => (adsrTick_st_held cfg (.inr hst)).trans hst, adsrTick_level_le hle cfg⟩

/-- Settles O36: the pass leaves of each voice what its own cycle makes of it; a key-off there keeps the level of the envelope cycle, and a
disabled SPU mutes. -/
theorem keyOffAndDisableRelease : Obligations.KeyOffAndDisableRelease := by
  refine ⟨fun s v hon hoff => ⟨tick std s, rfl, ?_⟩, fun s hdisabled => ⟨tick std s, rfl, fun v => ?_⟩⟩
  · obtain ⟨q, hq, hvoice, -, ev, -⟩ := voicePass_own std s v
    have honq : q.1.keyOn.getLsbD v.val = false := by rw [hq.keyOn]; exact hon
    have hoffq : q.1.keyOff.getLsbD v.val = true := by rw [hq.keyOff]; exact hoff
    rw [tick_voice, ev, voiceCycle_state]
    obtain ⟨hst, hdivider⟩ := voiceCycleState_keyOff (c := std) (fm := q.2.fmPrev) honq hoffq
    refine ⟨hst, hdivider, fun henabled hahead => ?_⟩
    rw [voiceCycleState_keyOff_level honq hoffq (hq.spuEnable.trans henabled),
      voiceMid_adsr_ahead (by rw [hvoice]; exact hahead), adsrCfg_congr hq.regs, hvoice]
    exact apply_ite Adsr.level ..
  · obtain ⟨q, hq, -, -, ev, -⟩ := voicePass_own std s v
    rw [tick_voice, ev, voiceCycle_state]
    exact voiceCycleState_disabled (hq.spuEnable.trans hdisabled)

end Sys2Proof.Proofs
end

section
/-!
The statement on the volume scaler: what a volume word configures (R255) and one sweep cycle (R258).
-/

namespace Sys2Proof.Machine

/-! The configuration of a sweep word, with the parameter sets of R228. -/

theorem volConfig_rising {word : Cell} (hsweep : word.getLsbD 15 = true) (hrise : word.getLsbD 13 = false) :
    volConfig word =
      .sweep (if word.getLsbD 14 then smoothUpParams (field word 2 5) (7 - field word 0 2)
        else linearParams (field word 2 5) (7 - field word 0 2)) (word.getLsbD 12) := by
  rw [volConfig, if_pos hsweep, hrise]
  rfl

theorem volConfig_falling {word : Cell} (hsweep : word.getLsbD 15 = true) (hfall : word.getLsbD 13 = true) :
    volConfig word =
      .sweep (if word.getLsbD 14 then expParams (field word 2 5) (-8 + field word 0 2)
        else linearParams (field word 2 5) (-8 + field word 0 2)) (word.getLsbD 12) := by
  rw [volConfig, if_pos hsweep, hfall]
  rfl

/-! The phase as a sign (R258). -/

/-- The sign of a sweep's phase (R258). -/
def phaseSign (neg : Bool) : Int := if neg then -1 else 1

theorem phaseSign_mul (neg : Bool) (x : Int) : phaseSign neg * x = if neg then -x else x := by
  cases neg with
  | false => exact one_mul x
  | true => exact neg_one_mul x

/-- A level whose sign is not the phase's stands for magnitude 0 (R258). -/
theorem sweepMagnitude_eq (neg : Bool) (level : Sample) : sweepMagnitude neg level = clamp (phaseSign neg * s16 level) 0 0x7FFF := by
  rw [sweepMagnitude, phaseSign_mul]

/-- A magnitude in range keeps its value as a level, in both phases (R258). -/
theorem sweepLevel_toInt (neg : Bool) {m : Int} (h : 0 ≤ m ∧ m ≤ 0x7FFF) : (sweepLevel neg m).toInt = phaseSign neg * m := by
  rw [phaseSign_mul]
  refine s16_u16 ?_
  split <;> omega

/-! One sweep cycle (R258). -/

/-- A number of 16 bits is kept by its cell. -/
theorem ofNat16_toNat {n : Nat} (h : n ≤ 0xFFFF) : (BitVec.ofNat 16 n).toNat = n := by
  rw [BitVec.toNat_ofNat, Nat.mod_eq_of_lt (by omega)]

/-- The divider's saturated sum in a sweep cycle (R258). -/
def sweepDividerSum (p : EnvParams) (neg : Bool) (U : VolUnit) : Nat :=
  min 0xFFFF (U.divider.toNat + divStep p (sweepMagnitude neg U.level))

/-- The magnitude that a sweep cycle takes when its divider overflows (R258). -/
def sweepNewMagnitude (p : EnvParams) (neg : Bool) (U : VolUnit) : Int :=
  clamp (sweepMagnitude neg U.level + lvlStep p (sweepMagnitude neg U.level)) 0 0x7FFF

theorem sweepCycle_eq {word : Cell} {p : EnvParams} {neg : Bool} (hcfg : volConfig word = .sweep p neg) (U : VolUnit) :
    sweepCycle word U =
      if sweepDividerSum p neg U < 0x8000 then
        { level := sweepLevel neg (sweepMagnitude neg U.level), divider := BitVec.ofNat 16 (sweepDividerSum p neg U) }
      else
        { level := sweepLevel neg (sweepNewMagnitude p neg U), divider := BitVec.ofNat 16 (sweepDividerSum p neg U - 0x8000) } := by
  rw [sweepCycle, hcfg]
  rfl

/-- Below the overflow the level is the clamped magnitude, and the divider keeps its sum (R258). -/
theorem sweepCycle_waits {word : Cell} {p : EnvParams} {neg : Bool} {U : VolUnit} (hcfg : volConfig word = .sweep p neg)
    (hd : sweepDividerSum p neg U < 0x8000) :
    (sweepCycle word U).level.toInt = phaseSign neg * sweepMagnitude neg U.level ∧
      (sweepCycle word U).divider.toNat = sweepDividerSum p neg U := by
  rw [sweepCycle_eq hcfg, if_pos hd]
  exact ⟨sweepLevel_toInt neg (clamp_bounds (by norm_num) _), ofNat16_toNat (by omega)⟩

/-- On overflow the magnitude takes its step, and the divider keeps the remainder (R258). -/
theorem sweepCycle_steps {word : Cell} {p : EnvParams} {neg : Bool} {U : VolUnit} (hcfg : volConfig word = .sweep p neg)
    (hd : 0x8000 ≤ sweepDividerSum p neg U) :
    (sweepCycle word U).level.toInt = phaseSign neg * sweepNewMagnitude p neg U ∧
      (sweepCycle word U).divider.toNat = sweepDividerSum p neg U - 0x8000 := by
  have hsat : sweepDividerSum p neg U ≤ 0xFFFF := Nat.min_le_left ..
  rw [sweepCycle_eq hcfg, if_neg (Nat.not_lt.mpr hd)]
  exact ⟨sweepLevel_toInt neg (clamp_bounds (by norm_num) _), ofNat16_toNat (by omega)⟩

/-- A fixed word is taken over, and the divider stands (R258). -/
theorem sweepCycle_fixed {word : Cell} (h : word.getLsbD 15 = false) (U : VolUnit) :
    sweepCycle word U = { U with level := word <<< 1 } := by
  rw [sweepCycle, volConfig_fixed h]
  exact congrArg (fun level => { U with level }) (u16_s16 _)

end Sys2Proof.Machine

namespace Sys2Proof.Proofs

open Sys2Proof.Machine

/-- Settles O43: a fixed word, or a sweep's configuration by its direction and its cycle by whether the divider overflows. -/
theorem sweepCycle : Obligations.SweepCycle := by
  refine fun word U => ⟨fun hfixed => ⟨volConfig_fixed hfixed, sweepCycle_fixed hfixed U⟩, fun hsweep => ?_⟩
  intro shift step mode p
  have hcfg : volConfig word = .sweep p (word.getLsbD 12) := by
    have hshift : field word 2 5 = shift := field_eq word 2 5
    have hstep : field word 0 2 = word.toNat % 4 := by rw [field_eq, pow_zero, Nat.div_one]; rfl
    cases hdir : word.getLsbD 13 with
    | false =>
      rw [volConfig_rising hsweep hdir, smoothUpParams_or_linearParams, hshift, hstep]
      simp only [p, mode, step, hdir]
      rfl
    | true =>
      rw [volConfig_falling hsweep hdir, expParams_or_linearParams, hshift, hstep]
      simp only [p, mode, step, hdir]
      rfl
  refine ⟨hcfg, ?_⟩
  intro sign m d
  have hm : sweepMagnitude (word.getLsbD 12) U.level = m := sweepMagnitude_eq _ _
  have hd : sweepDividerSum p (word.getLsbD 12) U = d := by rw [sweepDividerSum, hm]
  have hnew : sweepNewMagnitude p (word.getLsbD 12) U = min 0x7FFF (max 0 (m + lvlStep p m)) := by rw [sweepNewMagnitude, hm, clamp]
  rw [← hd, ← hnew, ← hm]
  exact ⟨sweepCycle_waits hcfg, sweepCycle_steps hcfg⟩

end Sys2Proof.Proofs
end

section
/-!
The statement on the noise generator: the two counters of a cycle, and the register they clock (R271, R272).
-/

namespace Sys2Proof.Machine

/-! The counters' sums before their overflow tests (R271, R272). -/

/-- The first counter and its increment, before the overflow test (R272). -/
def State.noiseSum1 (s : State) : BitVec 16 := s.nCnt1 + BitVec.ofNat 16 (noiseInc1 s.noiseShift)

/-- The second counter and its increment, before the overflow test (R272). -/
def State.noiseSum2 (s : State) : BitVec 8 := s.nCnt2 + BitVec.ofNat 8 (noiseInc2 s.noiseShift s.noiseStep)

theorem noiseSum1_toNat (s : State) : s.noiseSum1.toNat = (s.nCnt1.toNat + noiseInc1 s.noiseShift) % 0x10000 := by
  rw [State.noiseSum1, BitVec.toNat_add, BitVec.toNat_ofNat, Nat.add_mod_mod]

theorem noiseSum2_toNat (s : State) : s.noiseSum2.toNat = (s.nCnt2.toNat + noiseInc2 s.noiseShift s.noiseStep) % 0x100 := by
  rw [State.noiseSum2, BitVec.toNat_add, BitVec.toNat_ofNat, Nat.add_mod_mod]

theorem bit15_eq_decide (n : BitVec 16) : n.getLsbD 15 = decide (0x8000 ≤ n.toNat) :=
  (BitVec.msb_eq_getLsbD_last n).symm.trans (BitVec.msb_eq_decide n)

theorem bit3_eq_decide (n : BitVec 8) : n.getLsbD 3 = decide (n.toNat / 8 % 2 = 1) := Nat.testBit_eq_decide_div_mod_eq

/-! One cycle, by the overflows (R272). -/

/-- Below its overflow the first counter is all that moves (R272). -/
theorem noiseCycle_counts (c : Config) {s : State} (h : s.noiseSum1.toNat < 0x8000) :
    noiseCycle c s = { s with nCnt1 := s.noiseSum1 } := by
  have hbit : s.noiseSum1.getLsbD 15 = false := (bit15_eq_decide _).trans (decide_eq_false (Nat.not_le.mpr h))
  exact if_neg (Bool.eq_false_iff.mp hbit)

/-- An overflow clears the first counter and runs the second stage (R272). -/
theorem noiseCycle_overflows (c : Config) {s : State} (h : 0x8000 ≤ s.noiseSum1.toNat) :
    noiseCycle c s = noiseStage2 c { s with nCnt1 := 0#16 } := by
  have hbit : s.noiseSum1.getLsbD 15 = true := (bit15_eq_decide _).trans (decide_eq_true h)
  exact if_pos hbit

/-- The second stage leaves the first counter (R272). -/
theorem noiseStage2_nCnt1 (c : Config) (s : State) : (noiseStage2 c s).nCnt1 = s.nCnt1 := by
  rw [noiseStage2]
  exact (apply_ite State.nCnt1 ..).trans (ite_self _)

/-- Below its overflow the second counter is all that moves in the second stage (R272). -/
theorem noiseStage2_counts (c : Config) {s : State} (h : s.noiseSum2.toNat / 8 % 2 = 0) :
    noiseStage2 c s = { s with nCnt2 := s.noiseSum2 } := by
  have hbit : s.noiseSum2.getLsbD 3 = false := (bit3_eq_decide _).trans (decide_eq_false (by omega))
  exact if_neg (Bool.eq_false_iff.mp hbit)

/-- An overflow of the second counter keeps its low three bits and shifts the register (R272). -/
theorem noiseStage2_shifts (c : Config) {s : State} (h : s.noiseSum2.toNat / 8 % 2 = 1) :
    noiseStage2 c s = { s with nCnt2 := s.noiseSum2 &&& 7#8, lfsr := lfsrNext c s.lfsr } := by
  have hbit : s.noiseSum2.getLsbD 3 = true := (bit3_eq_decide _).trans (decide_eq_true h)
  exact if_pos hbit

theorem and7_toNat (n : BitVec 8) : (n &&& 7#8).toNat = n.toNat % 8 := Nat.and_two_pow_sub_one_eq_mod n.toNat 3

end Sys2Proof.Machine

namespace Sys2Proof.Proofs

open Sys2Proof.Machine

/-- Settles O44: the cycle by whether the first counter overflows, and then by whether the second does. -/
theorem noiseCycle : Obligations.NoiseCycle := by
  refine ⟨rfl, fun c s => ?_⟩
  intro shift n1 n2 t
  have hn1 : s.noiseSum1.toNat = n1 := noiseSum1_toNat s
  have hn2 : s.noiseSum2.toNat = n2 := noiseSum2_toNat s
  rw [← hn1, ← hn2]
  refine ⟨noiseCycle_frame c s, fun hcounts => ?_, fun hoverflows => ?_⟩
  · have ht : t = { s with nCnt1 := s.noiseSum1 } := noiseCycle_counts c hcounts
    rw [ht]
    exact ⟨rfl, rfl, rfl⟩
  · have ht : t = noiseStage2 c { s with nCnt1 := 0#16 } := noiseCycle_overflows c hoverflows
    rw [ht]
    refine ⟨noiseStage2_nCnt1 .., fun hcounts => ?_, fun hshifts => ?_⟩
    · rw [noiseStage2_counts (s := { s with nCnt1 := 0#16 }) c hcounts]
      exact ⟨rfl, rfl⟩
    · rw [noiseStage2_shifts (s := { s with nCnt1 := 0#16 }) c hshifts]
      exact ⟨and7_toNat _, fun _ hi => lfsrNext_bit_succ c _ hi, lfsrNext_bit_zero c _⟩

end Sys2Proof.Proofs
end

section
/-!
The statements on the tick: the CD blend and the output stage (R299, R303), a tick's blindness to the ring and to the latch (R305, R449),
and the steps of TICK and of a voice cycle in their order (R280, R282).
-/

namespace Sys2Proof.Machine

/-! The CD blend and the output stage (R299, R303). -/

/-- With `cd_en` = 0 CD audio is not blended (R299). -/
theorem cdBlend_off {s : State} (h : s.cdEn = false) (m : Mix) : cdBlend s m = m := by
  rw [cdBlend, h]
  rfl

/-- With `cd_en` = 1 the scaled CD pair is accumulated, into the reverb input if `cd_rvb` = 1 (R299). -/
theorem cdBlend_on {s : State} (h : s.cdEn = true) (m : Mix) :
    cdBlend s m = m.add (mul15 (s16 s.cdL) (s16 (s.reg 0xD8))) (mul15 (s16 s.cdR) (s16 (s.reg 0xD9))) s.cdRvb m.fmPrev := by
  rw [cdBlend, h]
  rfl

/-- The product of two 16-bit values leaves 16 bits in one case only, that of the two least values (R177). -/
theorem mul15_le {a b : Int} (ha : -32768 ≤ a ∧ a ≤ 32767) (hb : -32768 ≤ b ∧ b ≤ 32767) (h : ¬ (a = -32768 ∧ b = -32768)) :
    mul15 a b ≤ 32767 := by
  have hprod : a * b < 32768 * 32768 := by
    rcases not_and_or.mp h with hne | hne
    · nlinarith [show -32767 ≤ a by omega]
    · nlinarith [show -32767 ≤ b by omega]
  unfold mul15 asr
  omega

/-- The one level that is read as the least value. -/
theorem s16_eq_min (w : Cell) : s16 w = -32768 ↔ w = 0x8000#16 :=
  ⟨fun h => BitVec.eq_of_toInt_eq h, fun h => by rw [h]; rfl⟩

/-- The second saturation of the output stage does nothing but for the two least values (R303). -/
theorem mainScale_eq_mul15 {mix : Int} {U : VolUnit} (h : ¬ (sat16 mix = -32768 ∧ U.level = 0x8000#16)) :
    mainScale mix U = mul15 (sat16 mix) (s16 U.level) := by
  rw [← s16_eq_min] at h
  exact sat16_of_mem ⟨(mul15_bounds (sat16_bounds mix) (s16_bounds U.level)).1, mul15_le (sat16_bounds mix) (s16_bounds U.level) h⟩

/-! A tick from a state with another ring and another latch (R305, R449). -/

theorem finishTick_tweak (c : Config) (lmix rmix : Int) (s : State) (g : Ring) (b : Bool) :
    finishTick c lmix rmix (s.tweak g b) =
      (finishTick c lmix rmix s).tweak (g.push c (u16 (mainScale lmix s.mvL)) (u16 (mainScale rmix s.mvR))).2 b := rfl

/-- The pair a tick pushes and whether one of its accesses matches the watchdog's index depend on neither the ring nor the latch. -/
theorem tick_tweak (c : Config) (s : State) :
    ∃ l r hit, ∀ g b, tick c (s.tweak g b) = (tick c s).tweak (g.push c l r).2 (b || hit) := by
  obtain ⟨hit, hwet⟩ := tickWet_blind c s
  refine ⟨u16 (mainScale ((tickMix c s).lmix + (tickWet c s).1.1) (tickWet c s).2.mvL),
    u16 (mainScale ((tickMix c s).rmix + (tickWet c s).1.2) (tickWet c s).2.mvR), hit, fun g b => ?_⟩
  obtain ⟨hstate, hmix⟩ := hwet g b
  rw [tick_eq, hstate, hmix]
  exact finishTick_tweak ..

/-! The primitives and the watched write (R87, R172, R176, R177). -/

theorem u16_toNat_eq_emod (x : Int) : ((u16 x).toNat : Int) = x % 65536 := by
  rw [u16, BitVec.toNat_ofInt]
  exact Int.toNat_of_nonneg (Int.emod_nonneg x (by norm_num))

/-- A watched write as one record update, with its match over numbers (R87, R444). -/
theorem memWrite_eq (i : Index) (x : Cell) (s : State) :
    memWrite i x s =
      { s with ram := s.ram.write i.toNat x
               irqLatch := s.irqLatch || (s.irqEn && decide (i.toNat = 4 * (s.reg 0xD2).toNat)) } := by
  have hmatch : (i == s.irqIndex) = decide (i.toNat = 4 * (s.reg 0xD2).toNat) := index_beq i _
  rw [memWrite, irqCheck_eq, hmatch]

/-! The stages of a tick (R280). -/

/-- The CD capture does not touch the mute bit (R296, R298). -/
theorem muteMix_cdCapture (s : State) (m : Mix) : muteMix (cdCapture s) m = muteMix s m := by
  have hunmute : (cdCapture s).unmute = s.unmute := congrArg (BitVec.getLsbD · 14) ((cdCapture_memOnly s).reg 0xD5)
  rw [muteMix, hunmute]
  rfl

/-- The sums before the reverb cycle, with the mute before the CD capture (R280, steps T4 to T6). -/
theorem tickMix_eq (c : Config) (s : State) :
    tickMix c s = cdBlend (tickDry c s) (muteMix (noiseCycle c (voicePass c s).1) (voicePass c s).2) :=
  congrArg (cdBlend (tickDry c s)) (muteMix_cdCapture _ _)

/-! The stages of a voice cycle (R282). -/

/-- The envelope of a voice released if its key-off is latched: the first half of step V8 (R241, R292). -/
def keyOffEvent (v : VoiceId) (s : State) : State :=
  if s.keyOff.getLsbD v.val then s.modVoice v fun V => { V with adsr := adsrRelease V.adsr } else s

@[simp] theorem keyOffEvent_keyOn (v : VoiceId) (s : State) : (keyOffEvent v s).keyOn = s.keyOn := by
  unfold keyOffEvent
  split <;> rfl

/-- The key events, one after the other: the key-off leaves the key-on latch (R292). -/
theorem keyEvents_eq (c : Config) (v : VoiceId) (s : State) :
    keyEvents c v s =
      if (keyOffEvent v s).keyOn.getLsbD v.val then voiceRestart c v (keyOffEvent v s) else keyOffEvent v s := by
  rw [keyOffEvent_keyOn]
  rfl

/-- What a voice cycle adds to the sums: the panned sample, and to the reverb input if the voice sends to it (R282, R295). -/
theorem voiceCycle_mix (c : Config) (s : State) (m : Mix) (v : VoiceId) {raw : Int} {V : Voice}
    (hraw : rawSample c v (decoderStep c v s) = raw) (hV : (decoderStep c v s).voice v = V) :
    (voiceCycle c (s, m) v).2 =
      m.add (mul15 (enveloped raw V) (s16 V.volL.level)) (mul15 (enveloped raw V) (s16 V.volR.level))
        ((voiceCycle c (s, m) v).1.revEn.getLsbD v.val) (handOn c raw (enveloped raw V)) := by
  rw [← hraw, ← hV]
  rfl

end Sys2Proof.Machine

namespace Sys2Proof.Proofs

open Sys2Proof.Machine

/-- Settles O50: the blend by its two CONTROL bits, the output stage by whether its product leaves 16 bits. -/
theorem cdBlendAndOutputStage : Obligations.CdBlendAndOutputStage := by
  refine ⟨fun s m => ⟨fun hoff => cdBlend_off hoff m, fun hon hdry => ?_, fun hon hwet => ?_⟩,
    fun mix U => ⟨rfl, mainScale_eq_mul15, fun hmix hlevel => ?_⟩⟩
  · have hrvb : s.cdRvb = false := hdry
    rw [cdBlend_on hon, hrvb]
    rfl
  · have hrvb : s.cdRvb = true := hwet
    rw [cdBlend_on hon, hrvb]
    rfl
  · rw [mainScale, hmix, hlevel]
    decide

/-- Settles O56: a tick from a changed ring and latch, with the other of the two as it was. -/
theorem synthesisIgnoresRingAndLatch : Obligations.SynthesisIgnoresRingAndLatch := by
  refine ⟨fun c s => ?_, fun c s => ?_⟩
  · obtain ⟨l, r, hit, htick⟩ := tick_tweak c s
    have hlatch : (tick c s).irqLatch = (s.irqLatch || hit) := congrArg State.irqLatch (htick s.ring s.irqLatch)
    refine ⟨l, r, fun g => (htick g s.irqLatch).trans ?_⟩
    rw [← hlatch]
    rfl
  · obtain ⟨l, r, hit, htick⟩ := tick_tweak c s
    have hring : (tick c s).ring = (s.ring.push c l r).2 := congrArg State.ring (htick s.ring s.irqLatch)
    refine ⟨hit, fun b => (htick s.ring b).trans ?_⟩
    rw [← hring]
    rfl

/-- Settles O31: a tick is its stages in order, once the mute is read before the CD capture. -/
theorem tickRunsItsSteps : Obligations.TickRunsItsSteps := by
  refine ⟨by decide, fun x y w => ⟨rfl, rfl, rfl, u16_toNat_eq_emod x⟩, memWrite_eq, fun s => ?_⟩
  intro p s3 m4 s5 m6 q l r s9 s11
  have hm6 : tickMix std s = m6 := tickMix_eq std s
  have hq : tickWet std s = q := by
    rw [tickWet, hm6]
    rfl
  have htick : tick std s = finishTick std (m6.lmix + q.1.1) (m6.rmix + q.1.2) q.2 := by rw [tick_eq, hm6, hq]
  exact congrArg Host.Outcome.next htick

/-- Settles O32: step by step, with the voice's masks as bits of their cells and the key-on read after the key-off. -/
theorem voiceCycleRunsItsSteps : Obligations.VoiceCycleRunsItsSteps := by
  refine ⟨rfl, fun s v f => ⟨modVoice_voice_same s v f, fun w hw => modVoice_voice_other s hw f, rfl⟩, fun c s m v => ?_⟩
  intro selected s1 V raw e s4 s6 s7 s8 restarted s8' s9 l r
  have hraw : rawSample c v (decoderStep c v s) = raw := by rw [rawSample, State.noiseEn, mask24_voiceBit]
  have hmid : voiceMid c m.fmPrev v s = s7 := by
    rw [voiceMid, hraw]
    rfl
  have hstate : (voiceCycle c (s, m) v).1 = s9 := by
    rw [voiceCycle_state, voiceCycleState_eq, hmid]
    exact congrArg (disableMute v) (keyEvents_eq c v s7)
  have hsend : s9.revEn.getLsbD v.val = selected 0xCD 0xCC s9 := mask24_voiceBit _ _ v
  refine Prod.ext hstate ?_
  rw [voiceCycle_mix c s m v hraw rfl, hstate, hsend]
  rfl

end Sys2Proof.Proofs
end

section
/-!
The statements on the reverb: the wrap of its accesses (R312), the comb and the all-pass stages (R324 to R326), and the cycle around one
side's network (R314, R320).
-/

namespace Sys2Proof.Machine

open Sys2Proof.Safety

/-! Reads in the working area, one after another (R316). -/

/-- A sequence of watched reads of the given cells: nothing but the latch changes. -/
structure ReadsOnly (cells : List Index) (s t : State) : Prop where
  watched : WatchedAccesses cells s t
  ram : t.ram = s.ram

namespace ReadsOnly

variable {cells : List Index} {s t : State}

theorem none (s : State) : ReadsOnly [] s s := ⟨watched_none s, rfl⟩

theorem memOnly (h : ReadsOnly cells s t) : MemOnly s t := h.watched.1

/-- One more read, at an address of the first state. -/
theorem read (h : ReadsOnly cells s t) (off : Int) : ReadsOnly (cells ++ [s.rvAddr off]) s (rvRead off t).2 := by
  have hread := rvRead_watched off t
  rw [rvAddr_congr h.memOnly] at hread
  exact ⟨watched_append h.watched hread, (rvRead_ram off t).trans h.ram⟩

/-- Earlier reads change no later read's value. -/
theorem value (h : ReadsOnly cells s t) (off : Int) : (rvRead off t).1 = (s.ramAt (s.rvAddr off)).toInt :=
  rvRead_value_congr h.memOnly h.ram off

end ReadsOnly

/-! The comb (R324). -/

/-- The comb reads its four taps and writes no cell. -/
theorem comb_readsOnly (side : Side) (s : State) :
    ReadsOnly [s.rvAddr (s.rvOffset side.mComb1), s.rvAddr (s.rvOffset side.mComb2), s.rvAddr (s.rvOffset side.mComb3),
      s.rvAddr (s.rvOffset side.mComb4)] s (comb side s).2 :=
  ((((ReadsOnly.none s).read _).read _).read _).read _

/-- The comb's answer, over the sound RAM it begins with. -/
theorem comb_value (side : Side) (s : State) :
    (comb side s).1 =
      sat16 (mul15 (s.ramAt (s.rvAddr (s.rvOffset side.mComb1))).toInt (s.rvGain 0xE3) +
        mul15 (s.ramAt (s.rvAddr (s.rvOffset side.mComb2))).toInt (s.rvGain 0xE4) +
        mul15 (s.ramAt (s.rvAddr (s.rvOffset side.mComb3))).toInt (s.rvGain 0xE5) +
        mul15 (s.ramAt (s.rvAddr (s.rvOffset side.mComb4))).toInt (s.rvGain 0xE6)) := by
  have h1 := (ReadsOnly.none s).read (s.rvOffset side.mComb1)
  have h2 := h1.read (s.rvOffset side.mComb2)
  have h3 := h2.read (s.rvOffset side.mComb3)
  rw [← h1.value (s.rvOffset side.mComb2), ← h2.value (s.rvOffset side.mComb3), ← h3.value (s.rvOffset side.mComb4)]
  rfl

/-! The all-pass stage (R325, R326). -/

/-- The cell that an all-pass stage reads: its position less its delay. -/
def allPassDelay (m d : CellId) (s : State) : Index := s.rvAddr (s.rvOffset m - s.rvOffset d)

/-- The value that an all-pass stage stores. -/
def allPassValue (m d g : CellId) (x : Int) (s : State) : Int :=
  sat16 (x - mul15 (s.ramAt (allPassDelay m d s)).toInt (s.rvGain g))

/-- The state after the read of an all-pass stage. -/
def allPassRead (m d : CellId) (s : State) : State := (rvRead (s.rvOffset m - s.rvOffset d) s).2

theorem allPassRead_readsOnly (m d : CellId) (s : State) : ReadsOnly [allPassDelay m d s] s (allPassRead m d s) :=
  (ReadsOnly.none s).read _

/-- An all-pass stage: its read, then the write of its value at its position, and the answer from both. -/
theorem allPass_eq (c : Config) (m d g : CellId) (x : Int) (s : State) :
    allPass c m d g x s =
      (sat16 (mul15 (allPassValue m d g x s) (s.rvGain g) + (s.ramAt (allPassDelay m d s)).toInt),
        rvWrite c ((allPassRead m d s).rvOffset m) (allPassValue m d g x s) (allPassRead m d s)) := by
  rw [rvOffset_congr (allPassRead_readsOnly m d s).memOnly]
  rfl

/-- What an all-pass stage stores. -/
theorem allPass_stageStore (c : Config) (m d g : CellId) (x : Int) {s : State} (h : s.ram.wf) :
    StageStore c m (allPassValue m d g x s) s (allPass c m d g x s).2 := by
  have hread := allPassRead_readsOnly m d s
  have hwf : (allPassRead m d s).ram.wf := by rw [hread.ram]; exact h
  rw [allPass_eq]
  exact stageStore_of_reads hread.memOnly hread.ram (rvWrite_stageStore c m _ hwf)

/-- The cells that an all-pass stage accesses (R316, R317). -/
theorem allPass_watched (c : Config) (m d g : CellId) (x : Int) (s : State) :
    WatchedAccesses ([allPassDelay m d s] ++ gatedCell c (s.rvOffset m) s) s (allPass c m d g x s).2 := by
  have hread := allPassRead_readsOnly m d s
  have hwrite := rvWrite_watched c (s.rvOffset m) (allPassValue m d g x s) (allPassRead m d s)
  rw [gatedCell_congr hread.memOnly] at hwrite
  rw [allPass_eq, rvOffset_congr hread.memOnly]
  exact watched_append hread.watched hwrite

/-! The delay lines and their filter (R314, R320). -/

theorem shiftIn_get_castSucc (line : Vector Sample 39) (x : Sample) (k : Fin 38) :
    (shiftIn line x).get k.castSucc = line.get k.succ := by
  show (line.toList.drop 1 ++ [x])[k.val]'(by simp; omega) = line.get k.succ
  rw [List.getElem_append_left (by simp), List.getElem_drop, Vector.getElem_toList, Vector.get_eq_getElem]
  simp only [Nat.add_comm, Fin.val_succ]

theorem shiftIn_get_last (line : Vector Sample 39) (x : Sample) : (shiftIn line x).get (Fin.last 38) = x := by
  show (line.toList.drop 1 ++ [x])[38]'(by simp) = x
  rw [List.getElem_append_right (by simp)]
  simp

/-- The filter as a sum over the line's indices, for any 39 coefficients. -/
theorem firSum_eq_sum {c : Config} (h : c.fir39.length = 39) (line : Vector Sample 39) :
    firSum c line = ∑ k : Fin 39, c.fir39.getD k.val 0 * (line.get k).toInt := by
  have hterms : List.zipWith (fun k x => k * s16 x) c.fir39 line.toList =
      List.ofFn fun k : Fin 39 => c.fir39.getD k.val 0 * (line.get k).toInt := by
    refine List.ext_getElem (by simp [h]) fun i hi _ => ?_
    rw [List.getElem_zipWith, List.getElem_ofFn, List.getD_eq_getElem, Vector.getElem_toList]
    rfl
  rw [firSum, hterms, List.sum_ofFn]

/-! The stages around one side's network, by the phase (R315, R327, R330). -/

theorem rvSide_right {s : State} (h : s.rvPhase = true) : s.rvSide = .right := by rw [State.rvSide, h]; rfl

theorem rvSide_left {s : State} (h : s.rvPhase = false) : s.rvSide = .left := by rw [State.rvSide, h]; rfl

theorem downsampled_rvSide (c : Config) (s t : State) :
    downsampled c s.rvSide t = sat16 (firSum c (if s.rvPhase then t.dsR else t.dsL) / 2 ^ 15) := by
  cases hp : s.rvPhase with
  | false => rw [rvSide_left hp]; rfl
  | true => rw [rvSide_right hp]; rfl

theorem upsampleIn_rvSide (s : State) (y : Int) (t : State) :
    upsampleIn s.rvSide y t =
      { t with usL := shiftIn t.usL (if s.rvPhase then 0#16 else u16 y), usR := shiftIn t.usR (if s.rvPhase then u16 y else 0#16) } := by
  cases hp : s.rvPhase with
  | false => rw [rvSide_left hp]; rfl
  | true => rw [rvSide_right hp]; rfl

theorem reverbAdvance_rvSide (s t : State) :
    reverbAdvance s.rvSide t =
      { t with
        rvCursor := if s.rvPhase then (if t.rvCursor = 0x3FFFF#18 then t.rvBase else t.rvCursor + 1) else t.rvCursor
        rvPhase := !t.rvPhase } := by
  cases hp : s.rvPhase with
  | false => rw [rvSide_left hp]; rfl
  | true => rw [rvSide_right hp]; rfl

end Sys2Proof.Machine

namespace Sys2Proof.Proofs

open Sys2Proof.Machine

/-- Settles O46: the address as a number, with the base four times RVB_BASE. -/
theorem reverbAddressWraps : Obligations.ReverbAddressWraps := by
  intro s off base
  have hbase : s.rvBase.toNat = base := indexOf_toNat _
  have haddr := rvAddr_toNat s off
  rw [State.rvSize, hbase] at haddr
  refine ⟨hbase ▸ rvBase_le_rvAddr s off, (s.rvAddr off).isLt, ?_⟩
  rw [haddr, add_sub_cancel_left]

/-- Settles O48: the order is the network's own, the comb is four reads, an all-pass stage a read and the gated write of its value. -/
theorem combAndAllPassStages : Obligations.CombAndAllPassStages := by
  refine ⟨fun c side x s => ?_, fun side s => ?_, fun c m d g x s => ?_⟩
  · cases side <;> rfl
  · have hvalue := comb_value side s
    have hreads := comb_readsOnly side s
    simp only [rvOffset_eq] at hvalue hreads
    cases side <;> exact ⟨hvalue, hreads.ram, hreads.watched⟩
  · have hanswer := congrArg Prod.fst (allPass_eq c m d g x s)
    have hstore := allPass_stageStore c m d g x (s := s)
    have hwatched := allPass_watched c m d g x s
    simp only [allPassValue, allPassDelay, rvOffset_eq] at hanswer hstore hwatched
    exact ⟨hanswer, hstore, hwatched⟩

/-- Settles O49: the line's shift index by index, the filter as a sum, and the cycle by its stages around the network, which leaves the
registers, the lines, the cursor and the phase. -/
theorem reverbCycleRunsItsStages : Obligations.ReverbCycleRunsItsStages := by
  refine ⟨rfl, fun line x => ⟨shiftIn_get_castSucc line x, shiftIn_get_last line x, firSum_eq_sum rfl line⟩, fun c inL inR s => ?_⟩
  intro s1 q s2
  have hq : reverbSide c s.rvSide (downsampled c s.rvSide s1) s1 = q := by rw [downsampled_rvSide]; rfl
  have hmem : MemOnly s1 q.2 := hq ▸ (reverbSide_step c s.rvSide _ s1).mem
  have hup : upsampleIn s.rvSide q.1 q.2 = s2 := by rw [upsampleIn_rvSide, hmem.usL, hmem.usR]
  have hreg (k : CellId) : s2.reg k = s.reg k := hmem.reg k
  have hadvance : reverbAdvance s.rvSide s2 =
      { s2 with
        rvPhase := !s.rvPhase
        rvCursor := if s.rvPhase then (if s.rvCursor = 0x3FFFF#18 then s.reg 0xD1 ++ 0#2 else s.rvCursor + 1) else s.rvCursor } := by
    have hcursor : s2.rvCursor = s.rvCursor := hmem.rvCursor
    have hphase : s2.rvPhase = s.rvPhase := hmem.rvPhase
    have hbase : s2.rvBase = s.reg 0xD1 ++ 0#2 := rvBase_congr hmem.regs
    rw [reverbAdvance_rvSide, hcursor, hphase, hbase]
  calc reverbCycle c inL inR s
      = ((reverbOut c s2.usL (s2.reg 0xC2), reverbOut c s2.usR (s2.reg 0xC3)), reverbAdvance s.rvSide s2) := by
        rw [← hup, ← hq]; rfl
    _ = _ := by rw [hadvance, hreg, hreg]; rfl

end Sys2Proof.Proofs
end

section
/-!
The statements on the register file's rows with effects (R350 to R380), on the transfers through the transfer index (R372, R386, R387), on
the byte and word accesses (R382 to R385), and on the housekeeping commands (R388, R389, R470).
-/

namespace Sys2Proof.Machine

open Sys2Proof.Safety

/-! The rows of a register that stores (R350, R381). -/

/-- A global register that stores answers its cell. -/
theorem readsCell_glob {g : GReg} {k : CellId} (hg : (LogReg.glob g).storeCell = some k) : ReadsCell (readRow (.glob g)) k := fun s => by
  rw [exec_readRow, readReg_cell hg nofun nofun]
  rfl

/-- A write to a register that stores leaves every cell but its own. -/
theorem writeReg_reg_ne {r : LogReg} {h k : CellId} (hr : r.storeCell = some h) (hk : k ≠ h) (x : Cell) (s : State) :
    (writeReg r x s).reg k = s.reg k :=
  writeReg_reg_other (fun hrk => hk (Option.some.inj (hrk.symm.trans hr))) x s

/-- A write row stores to its register's cell alone; what else holds of the state after the write holds of the row. -/
theorem exec_writeRow_stores {r : LogReg} {h : CellId} (hr : r.storeCell = some h) (x : Cell) (s : State) {Q : State → Prop}
    (hQ : Q (writeReg r x s)) :
    ∃ t, exec (writeRow r x) s = .next t ∧ t.reg h = x ∧ (∀ k, k ≠ h → t.reg k = s.reg k) ∧ Q t :=
  ⟨_, exec_writeRow r x s, writeReg_reg_same hr x s, fun _ hk => writeReg_reg_ne hr hk x s, hQ⟩

/-! V_LEVEL and V_REPEAT (R357, R358). -/

/-- Clamping a 16-bit value to 0..0x7FFF only replaces the negative values, by 0 (R357). -/
theorem u16_clamp_s16 (x : Cell) : u16 (clamp (s16 x) 0 0x7FFF) = if x.toInt < 0 then 0#16 else x := by
  have hbounds := s16_bounds x
  by_cases hneg : s16 x < 0
  · have hzero : clamp (s16 x) 0 0x7FFF = 0 := by unfold clamp; omega
    rw [hzero]
    exact (if_pos hneg).symm
  · rw [clamp_of_mem (by omega), u16_s16]
    exact (if_neg hneg).symm

/-- V_REPEAT answers the loop index divided by 4 (R358). -/
theorem readVRepeat_toNat (v : VoiceId) (s : State) : (readVRepeat v s).toNat = (s.voice v).loopIndex.toNat / 4 := by
  have hlt := (s.voice v).loopIndex.isLt
  rw [readVRepeat, BitVec.extractLsb'_toNat, Nat.shiftRight_eq_div_pow, Nat.mod_eq_of_lt (by omega)]

/-- While the override is raised no header's loop point is captured (R358). -/
theorem headerCapture_of_loopForce {V : Voice} (h : V.loopForce = true) : headerCapture V = V :=
  if_neg (by simp [h])

/-! The key latches (R362, R363). -/

/-- A LO word sets the bits of voices 0 to 15. -/
theorem or_maskLo_getLsbD (m : Mask24) (x : Cell) (i : Nat) : (m ||| maskLo x).getLsbD i = (m.getLsbD i || x.getLsbD i) := by
  rw [BitVec.getLsbD_or, maskLo, BitVec.getLsbD_append, BitVec.getLsbD_zero]
  split
  · rfl
  · rw [BitVec.getLsbD_of_ge x i (by omega)]

/-- A HI word's low eight bits set the bits of voices 16 to 23. -/
theorem or_maskHi_getLsbD (m : Mask24) (x : Cell) (i : Nat) :
    (m ||| maskHi x).getLsbD i = (m.getLsbD i || (decide (16 ≤ i ∧ i < 24) && x.getLsbD (i - 16))) := by
  rw [BitVec.getLsbD_or, maskHi, BitVec.getLsbD_append, BitVec.getLsbD_zero, BitVec.getLsbD_extractLsb', Nat.zero_add]
  by_cases hlow : i < 16
  · rw [if_pos hlow, decide_eq_false (by omega : ¬ (16 ≤ i ∧ i < 24)), Bool.false_and]
  · have hrange : (i - 16 < 8) = (16 ≤ i ∧ i < 24) := propext (by omega)
    simp only [if_neg hlow, hrange]

/-! The checks of the transfer index, with the match over numbers (R370, R373, R444). -/

/-- The comparator as one record update. -/
theorem irqCheck_match (i : Index) (s : State) :
    irqCheck i s =
      { s with irqLatch := s.irqLatch || ((s.reg 0xD5).getLsbD 6 && decide (i.toNat = 4 * (s.reg 0xD2).toNat)) } := by
  have hmatch : (i == s.irqIndex) = decide (i.toNat = 4 * (s.reg 0xD2).toNat) := index_beq i _
  rw [irqCheck_eq, hmatch]
  rfl

/-- IRQ_ADDR's check is against the new address. -/
theorem writeIrqAddr_eq (x : Cell) (s : State) :
    writeIrqAddr x s =
      { s.setReg 0xD2 x with
        irqLatch := s.irqLatch || ((s.reg 0xD5).getLsbD 6 && decide (s.xferIndex.toNat = 4 * x.toNat)) } := by
  rw [writeIrqAddr, irqCheck_match, setReg_reg_same, setReg_reg_other s (by decide)]
  rfl

/-- CONTROL's check and acknowledge are by the new bit 6. -/
theorem writeControl_eq (x : Cell) (s : State) :
    writeControl x s =
      { s.setReg 0xD5 x with
        irqLatch := if x.getLsbD 6 then s.irqLatch || decide (s.xferIndex.toNat = 4 * (s.reg 0xD2).toNat) else false } := by
  rw [writeControl]
  cases hbit : x.getLsbD 6 with
  | true =>
    simp only [if_true, irqCheck_match, setReg_reg_same, setReg_reg_other s (show (0xD2 : CellId) ≠ 0xD5 by decide), hbit,
      Bool.true_and]
    rfl
  | false => rfl

/-! Transfers (R372, R386, R387). -/

theorem index_succ_toNat (i : Index) : (i + 1).toNat = (i.toNat + 1) % 0x40000 := BitVec.toNat_add i 1

theorem index_succ_succ_toNat (i : Index) : (i + 1 + 1).toNat = (i.toNat + 2) % 0x40000 := by
  rw [index_succ_toNat, index_succ_toNat, Nat.mod_add_mod]

/-- The transfer put as one record update, with its match over numbers (R372). -/
theorem xferPut_eq (x : Cell) (s : State) :
    xferPut x s =
      { s with
        ram := s.ram.write s.xferIndex.toNat x
        irqLatch := s.irqLatch || ((s.reg 0xD5).getLsbD 6 && decide (s.xferIndex.toNat = 4 * (s.reg 0xD2).toNat))
        xferIndex := s.xferIndex + 1 } := by
  rw [xferPut, memWrite_eq]
  rfl

/-- XFER_FIFO stores and then puts, under the watchdog's unchanged configuration (R372). -/
theorem writeXferFifo_eq (x : Cell) (s : State) :
    writeXferFifo x s =
      { s.setReg 0xD4 x with
        ram := s.ram.write s.xferIndex.toNat x
        irqLatch := s.irqLatch || ((s.reg 0xD5).getLsbD 6 && decide (s.xferIndex.toNat = 4 * (s.reg 0xD2).toNat))
        xferIndex := s.xferIndex + 1 } := by
  rw [writeXferFifo, xferPut_eq, setReg_reg_other s (by decide), setReg_reg_other s (by decide)]
  rfl

/-- The two watched writes of DMAST as one record update (R386). -/
theorem xferPut_xferPut (lo hi : Cell) (s : State) :
    xferPut hi (xferPut lo s) =
      { s with
        ram := (s.ram.write s.xferIndex.toNat lo).write ((s.xferIndex.toNat + 1) % 0x40000) hi
        irqLatch := s.irqLatch || ((s.reg 0xD5).getLsbD 6 && (decide (s.xferIndex.toNat = 4 * (s.reg 0xD2).toNat) ||
          decide ((s.xferIndex.toNat + 1) % 0x40000 = 4 * (s.reg 0xD2).toNat)))
        xferIndex := s.xferIndex + 1 + 1 } := by
  rw [Bool.and_or_distrib_left, ← Bool.or_assoc, ← index_succ_toNat, xferPut_eq hi, xferPut_eq lo]
  rfl

/-- Two cells written at different indices read back both, and no other cell changes. -/
theorem Memory.read_write_write {m : Memory} {a b : Nat} (hab : a ≠ b) (x y : Cell) :
    (m.wf → ((m.write a x).write b y).read a = x ∧ ((m.write a x).write b y).read b = y) ∧
    ∀ c, c ≠ a → c ≠ b → ((m.write a x).write b y).read c = m.read c :=
  ⟨fun hwf => ⟨(Memory.read_write_other _ hab _).trans (Memory.read_write_same hwf _ _),
      Memory.read_write_same (Memory.wf_write hwf _ _) _ _⟩,
    fun _ ha hb => (Memory.read_write_other _ hb _).trans (Memory.read_write_other _ ha _)⟩

/-- The word of DMALD, with the wrapped index as a number (R387). -/
theorem dmaWord_eq (s : State) : dmaWord s = s.ram.read ((s.xferIndex.toNat + 1) % 0x40000) ++ s.ram.read s.xferIndex.toNat := by
  rw [← index_succ_toNat]
  rfl

/-- DMALD as one record update: the advanced index is checked once (R387). -/
theorem exec_dmald_eq (s : State) :
    exec .dmald s =
      .next { s with
        xferIndex := s.xferIndex + 1 + 1
        irqLatch := s.irqLatch ||
          ((s.reg 0xD5).getLsbD 6 && decide ((s.xferIndex.toNat + 2) % 0x40000 = 4 * (s.reg 0xD2).toNat))
        resp := .word (dmaWord s) } := by
  rw [← index_succ_succ_toNat]
  exact congrArg (fun t : State => Host.Outcome.next (t.respond (.word (dmaWord s)))) (irqCheck_match _ (bumpXfer (bumpXfer s)))

/-! The byte writes (R383). -/

theorem exec_wr8_even {boff : ByteOff} (h : boff.getLsbD 0 = false) (b : BitVec 8) (s : State) :
    exec (.wr8 boff b) s = exec (.wr16 boff (0#8 ++ b)) s :=
  congrArg Host.Outcome.next (if_neg (Bool.eq_false_iff.mp h))

theorem exec_wr8_odd {boff : ByteOff} (h : boff.getLsbD 0 = true) (b : BitVec 8) (s : State) : exec (.wr8 boff b) s = .next s :=
  congrArg Host.Outcome.next (if_pos h)

/-! The reset table (R470). -/

/-- A created ring's size is the least legal one that holds the request (R412). -/
theorem create_size_least (n : Nat) (p : RingPolicy) (latency : Nat) (overlay : Bool) :
    IsRingSize (Ring.create n p latency overlay).size ∧ n ≤ (Ring.create n p latency overlay).size ∧
    ∀ k, n ≤ 2 ^ (k + 1) → (Ring.create n p latency overlay).size ≤ 2 ^ (k + 1) := by
  refine ⟨create_size n, (le_nextPow2 n).trans (le_max_right ..), fun k hk => max_le ?_ (nextPow2_le hk)⟩
  exact Nat.le_self_pow k.succ_ne_zero 2

/-- Every delay-line sample is 0 after reset (R470). -/
theorem replicate_get_zero (k : Fin 39) : (Vector.replicate 39 0#16).get k = 0#16 := by
  rw [Vector.get_eq_getElem]
  exact Vector.getElem_replicate k.isLt

/-- The reset state has the table's values, whatever commands are still issued. -/
theorem resetValues_withPort (port : List CmdWord) : ResetValues { State.reset with port := port } where
  regs := reset_reg
  ram _ := rfl
  latches := ⟨rfl, rfl, rfl, rfl⟩
  counters := ⟨rfl, rfl, rfl⟩
  noise := ⟨rfl, rfl, rfl⟩
  mainVol := ⟨rfl, rfl⟩
  cd := ⟨rfl, rfl⟩
  voices := reset_voice
  reverb := ⟨rfl, rfl⟩
  lines k := ⟨replicate_get_zero k, replicate_get_zero k, replicate_get_zero k, replicate_get_zero k⟩
  ringSize := create_size_least ..
  ringConfig := ⟨rfl, rfl, rfl⟩
  ringData _ := rfl
  ringCounters := ⟨rfl, rfl, rfl, rfl, rfl, rfl, rfl, rfl⟩

end Sys2Proof.Machine

namespace Sys2Proof.Proofs

open Sys2Proof.Machine Sys2Proof.Safety

/-- Settles O9: each pair of rows is that of a register that is no more than its cell. -/
theorem plainStorageCells : Obligations.PlainStorageCells :=
  ⟨storedCell_rows (.glob .noiseLo), storedCell_rows (.glob .noiseHi), storedCell_rows (.glob .rvbEnLo),
    storedCell_rows (.glob .rvbEnHi), storedCell_rows (.glob .cellD0), storedCell_rows (.glob .xferCtrl),
    storedCell_rows (.glob .cellDA), storedCell_rows (.glob .cellDB), storedCell_rows (.glob .cellDC),
    storedCell_rows (.glob .cellDD), storedCell_rows (.glob .cellDE), storedCell_rows (.glob .cellDF)⟩

/-- Settles O10: the write's change of the voice, with the clamp as a choice by the sign. -/
theorem voiceLevelRegister : Obligations.VoiceLevelRegister := fun v s => by
  refine ⟨exec_readRow (.voice v .level) s, fun x => ⟨_, exec_writeRow (.voice v .level) x s, writeReg_reg_same rfl x s, rfl,
    fun _ hk => writeReg_reg_ne rfl hk x s, ?_, fun _ hw => modVoice_voice_other _ hw _, rfl⟩⟩
  rw [← u16_clamp_s16]
  exact modVoice_voice_same ..

/-- Settles O11: the write's change of the voice, then the override in the header capture and in a restart. -/
theorem voiceRepeatRegister : Obligations.VoiceRepeatRegister := by
  refine ⟨fun v s => ⟨⟨_, exec_readRow (.voice v .repeatIx) s, readVRepeat_toNat v s⟩, fun x => ?_⟩,
    fun _ => headerCapture_of_loopForce, fun c v s => ?_⟩
  · exact ⟨_, exec_writeRow (.voice v .repeatIx) x s, writeReg_reg_same rfl x s, rfl, fun _ hk => writeReg_reg_ne rfl hk x s,
      modVoice_voice_same .., indexOf_toNat x, fun _ hw => modVoice_voice_other _ hw _, rfl⟩
  · rw [voiceRestart_voice]
    exact ⟨rfl, rfl⟩

/-- Settles O12: the four writes by their masks' bits. -/
theorem keyLatchRegisters : Obligations.KeyLatchRegisters :=
  ⟨⟨readsCell_glob (g := .konLo) rfl, readsCell_glob (g := .konHi) rfl, readsCell_glob (g := .koffLo) rfl,
      readsCell_glob (g := .koffHi) rfl⟩,
    fun s x =>
      ⟨exec_writeRow_stores (r := .glob .konLo) rfl x s ⟨or_maskLo_getLsbD s.keyOn x, rfl⟩,
        exec_writeRow_stores (r := .glob .konHi) rfl x s ⟨or_maskHi_getLsbD s.keyOn x, rfl⟩,
        exec_writeRow_stores (r := .glob .koffLo) rfl x s ⟨or_maskLo_getLsbD s.keyOff x, rfl⟩,
        exec_writeRow_stores (r := .glob .koffHi) rfl x s ⟨or_maskHi_getLsbD s.keyOff x, rfl⟩⟩⟩

/-- Settles O14: the rows of the registers without storage. -/
theorem currentLevelAndUnmapped : Obligations.CurrentLevelAndUnmapped := fun s =>
  ⟨fun v => ⟨exec_readRow (.curVol v .left) s, exec_readRow (.curVol v .right) s,
      fun x => ⟨exec_writeRow (.curVol v .left) x s, exec_writeRow (.curVol v .right) x s⟩⟩,
    fun h => ⟨exec_readRow (.unmapped h) s, fun x => exec_writeRow (.unmapped h) x s⟩⟩

/-- Settles O15: each write beside its store sets one index, four times the value. -/
theorem baseAndTransferAddress : Obligations.BaseAndTransferAddress :=
  ⟨⟨readsCell_glob (g := .rvbBase) rfl, readsCell_glob (g := .xferAddr) rfl⟩, fun s x =>
    ⟨exec_writeRow_stores (r := .glob .rvbBase) rfl x s ⟨indexOf_toNat x, rfl⟩,
      exec_writeRow_stores (r := .glob .xferAddr) rfl x s ⟨indexOf_toNat x, rfl⟩⟩⟩

/-- Settles O16: each write is its store and one value of the latch. -/
theorem irqAddressAndControl : Obligations.IrqAddressAndControl := by
  refine ⟨⟨readsCell_glob (g := .irqAddr) rfl, readsCell_glob (g := .control) rfl⟩, fun s x =>
    ⟨exec_writeRow_stores (r := .glob .irqAddr) rfl x s ?_, exec_writeRow_stores (r := .glob .control) rfl x s ?_⟩⟩
  · have hwrite : writeReg (.glob .irqAddr) x s = _ := writeIrqAddr_eq x s
    rw [hwrite]
    exact ⟨rfl, rfl⟩
  · have hwrite : writeReg (.glob .control) x s = _ := writeControl_eq x s
    rw [hwrite]
    exact ⟨rfl, rfl⟩

/-- Settles O17: the write is its store and one transfer put. -/
theorem transferFifo : Obligations.TransferFifo := by
  refine ⟨readsCell_glob (g := .xferFifo) rfl, fun s x => exec_writeRow_stores (r := .glob .xferFifo) rfl x s ?_⟩
  have hwrite : writeReg (.glob .xferFifo) x s = _ := writeXferFifo_eq x s
  rw [hwrite]
  exact ⟨fun hwf => Memory.read_write_same hwf _ _, fun _ ha => Memory.read_write_other _ ha _, index_succ_toNat _, rfl, rfl⟩

/-- Settles O18: two transfer puts, at indices that differ. -/
theorem dmaStoreWritesTwoCells : Obligations.DmaStoreWritesTwoCells := fun s w => by
  have hne : s.xferIndex.toNat ≠ (s.xferIndex.toNat + 1) % 0x40000 := by omega
  obtain ⟨hback, hother⟩ := Memory.read_write_write (m := s.ram) hne (w.extractLsb' 0 16) (w.extractLsb' 16 16)
  exact ⟨_, congrArg Host.Outcome.next (xferPut_xferPut ..), hback, hother, index_succ_succ_toNat _, rfl, rfl⟩

/-- Settles O19: the load as one update of the state. -/
theorem dmaLoadReadsTwoCells : Obligations.DmaLoadReadsTwoCells := fun s =>
  ⟨_, exec_dmald_eq s, congrArg Response.word (dmaWord_eq s), index_succ_succ_toNat _, rfl, rfl⟩

/-- Settles O21: the byte lane of the one 16-bit read, and the two 16-bit reads of the word. -/
theorem byteAndWordReads : Obligations.ByteAndWordReads := fun boff s =>
  ⟨⟨read16 boff s, rfl, rfl⟩, read16 (wordBase boff) s, read16 (wordBase boff + 2) s, rfl, rfl, rfl⟩

/-- Settles O22: WR8 by the parity of its offset, WR32 by the state between its two writes. -/
theorem byteAndWordWrites : Obligations.ByteAndWordWrites :=
  ⟨fun _ b s => ⟨fun heven => ⟨_, exec_wr8_even heven b s, rfl⟩, fun hodd => exec_wr8_odd hodd b s⟩, fun boff w s =>
    ⟨write16 (wordBase boff) (w.extractLsb' 0 16) s, write32 boff w s, rfl, rfl, rfl⟩⟩

/-- Settles O25: RESET's state is the reset state with the port as it was. -/
theorem nopCdinAndReset : Obligations.NopCdinAndReset :=
  ⟨fun _ => ⟨rfl, fun _ _ => rfl⟩, fun s => ⟨_, rfl, resetValues_withPort s.port, rfl⟩, resetValues_withPort State.reset.port⟩

end Sys2Proof.Proofs
end

section
/-!
The statements on the output ring buffer (R411 to R431): its invariant over every step, RINGCFG, PUSH and its overflow policies, POP, and
the average fill.
-/

namespace Sys2Proof.Machine

open Sys2Proof.Safety

/-! The ring's invariant over the state changes of the commands (R411). -/

@[simp] theorem writeReg_ring (r : LogReg) (x : Cell) (s : State) : (writeReg r x s).ring = s.ring := by rw [writeReg_frame]

@[simp] theorem xferPut_ring (x : Cell) (s : State) : (xferPut x s).ring = s.ring := by rw [xferPut_frame]

/-- No state change touches the ring but a push, a pop and the creation of a ring. -/
theorem ringOk_keeps : Keeps fun s => RingOk s.ring where
  respond _ _ h := h
  writeReg r x s h := (writeReg_ring r x s).symm ▸ h
  push l r _ h := push_ok h std l r
  pop n _ h := pop_ok h n
  ringcfg _ _ _ _ _ _ := create_ok _ _ _ _
  xferPut x s h := (xferPut_ring x s).symm ▸ h
  bumpXfer _ h := h
  irqCheck i s h := (irqCheck_memOnly i s).ring.symm ▸ h
  tick s h := by
    obtain ⟨l, r, hpush⟩ := tick_ring std s
    rw [hpush]
    exact push_ok h std l r
  carry _ _ _ h := h
  cdin _ _ _ h := h
  reset _ := create_ok _ _ _ _
  taken _ _ h := h

/-! PUSH, one equation per policy (R415, R416). -/

section
variable {c : Config} {g : Ring} (l r : Sample)

theorem push_of_room (h : g.fill + 2 ≤ g.size) : g.push c l r = (true, g.store l r) := if_pos h

theorem push_dropOldest (h : ¬ g.fill + 2 ≤ g.size) (hp : g.policy = .dropOldest) :
    g.push c l r = (false, (g.dropOld 2).store l r) := by
  rw [Ring.push, if_neg h, hp]

theorem push_dropNewest (h : ¬ g.fill + 2 ≤ g.size) (hp : g.policy = .dropNewest) : g.push c l r = (false, g.refusePair) := by
  rw [Ring.push, if_neg h, hp]

theorem push_halveBuffer_refuses (h : ¬ g.fill + 2 ≤ g.size) (hp : g.policy = .halveBuffer) (hc : c.halveAdmitsNew = false) :
    g.push c l r = (false, (g.dropOld (max 2 (g.fill / 2))).refusePair) := by
  rw [Ring.push, if_neg h, hp]
  simp only [hc, Bool.false_eq_true, if_false]

theorem push_halveBuffer_admits (h : ¬ g.fill + 2 ≤ g.size) (hp : g.policy = .halveBuffer) (hc : c.halveAdmitsNew = true) :
    g.push c l r = (false, (g.dropOld (max 2 (g.fill / 2))).store l r) := by
  rw [Ring.push, if_neg h, hp]
  simp only [hc, if_true]

theorem push_reset (h : ¬ g.fill + 2 ≤ g.size) (hp : g.policy = .reset) : g.push c l r = (false, g.dropAll.store l r) := by
  rw [Ring.push, if_neg h, hp]

end

/-! What a push makes of the ring: it discards stored samples, perhaps none, and then stores or refuses its pair (R415). -/

/-- `h` is `g` after `k` samples were discarded: the cursors and the fill have moved, the samples count as dropped. -/
def Discards (g h : Ring) (k : Nat) : Prop :=
  h = { g with rd := h.rd, wr := h.wr, fill := h.fill, totalDropped := g.totalDropped + k }

theorem dropOld_discards (g : Ring) (k : Nat) : Discards g (g.dropOld k) k := rfl

theorem dropAll_discards (g : Ring) : Discards g g.dropAll g.fill := rfl

theorem discards_none (g : Ring) : Discards g g 0 := rfl

/-- Storing after a discard: the samples kept, then the pair, and the statistics of one stored push. -/
theorem pairStored_of_discards {g h : Ring} {k : Nat} (hd : Discards g h k) (hok : RingOk h) (hroom : h.fill + 2 ≤ h.size)
    (l r : Sample) : PairStored g (h.store l r) h.contents k h.rd ((h.wr + 2) % h.size) l r := by
  refine ⟨store_contents hok hroom l r, (contents_length h).symm ▸ rfl, rfl, rfl, ?_⟩
  rw [hd]
  exact ⟨rfl, rfl, rfl, rfl, rfl, rfl, rfl, rfl, rfl⟩

/-- Refusing after dropping the oldest: the samples kept, and two more count as dropped. -/
theorem pairRefused_dropOld {g : Ring} {k : Nat} (hk : k ≤ g.fill) :
    PairRefused g (g.dropOld k).refusePair (g.contents.drop k) (k + 2) ((g.rd + k) % g.size) := by
  refine ⟨(refusePair_contents _).trans (dropOld_contents hk), ?_⟩
  rw [List.length_drop, contents_length, ← Nat.add_assoc]
  rfl

theorem pairRefused_refusePair (g : Ring) : PairRefused g g.refusePair g.contents 2 g.rd :=
  ⟨refusePair_contents g, (contents_length g).symm ▸ rfl⟩

/-- Storing into a full ring after dropping an even number of its oldest samples (R415). -/
theorem pairStored_dropOld {g : Ring} (hok : RingOk g) (hfull : g.fill = g.size) {k : Nat} (h2 : 2 ≤ k) (hk : k ≤ g.fill) (he : 2 ∣ k)
    (l r : Sample) :
    PairStored g ((g.dropOld k).store l r) (g.contents.drop k) k ((g.rd + k) % g.size) ((g.wr + 2) % g.size) l r := by
  have hroom : (g.dropOld k).fill + 2 ≤ (g.dropOld k).size := by
    show g.fill - k + 2 ≤ g.size
    omega
  rw [← dropOld_contents hk]
  exact pairStored_of_discards (dropOld_discards g k) (dropOld_ok hok hk he) hroom l r

/-! What every push does, over all policies (R415, R431). -/

/-- A push stores its pair or refuses it, after discarding samples, perhaps none, if there was no room (R415). -/
theorem push_cases (c : Config) (l r : Sample) (g : Ring) :
    (g.fill + 2 ≤ g.size ∧ g.push c l r = (true, g.store l r)) ∨
    (¬ g.fill + 2 ≤ g.size ∧ ∃ h k, Discards g h k ∧
      (g.push c l r = (false, h.store l r) ∨ g.push c l r = (false, h.refusePair))) := by
  by_cases hroom : g.fill + 2 ≤ g.size
  · exact .inl ⟨hroom, push_of_room l r hroom⟩
  · refine .inr ⟨hroom, ?_⟩
    cases hp : g.policy with
    | dropOldest => exact ⟨_, _, dropOld_discards g 2, .inl (push_dropOldest l r hroom hp)⟩
    | dropNewest => exact ⟨_, _, discards_none g, .inr (push_dropNewest l r hroom hp)⟩
    | halveBuffer =>
      refine ⟨_, _, dropOld_discards g (max 2 (g.fill / 2)), ?_⟩
      cases hc : c.halveAdmitsNew with
      | false => exact .inr (push_halveBuffer_refuses l r hroom hp hc)
      | true => exact .inl (push_halveBuffer_admits l r hroom hp hc)
    | reset => exact ⟨_, _, dropAll_discards g, .inl (push_reset l r hroom hp)⟩

/-- PUSH answers whether two slots were free (R415). -/
theorem push_answer (c : Config) (l r : Sample) (g : Ring) : (g.push c l r).1 = decide (2 ≤ g.size - g.fill) := by
  rcases push_cases c l r g with ⟨hroom, e⟩ | ⟨hno, _, _, -, e | e⟩
  · rw [e, decide_eq_true (by omega)]
  · rw [e, decide_eq_false (by omega)]
  · rw [e, decide_eq_false (by omega)]

/-- A store samples the fill after it, a refusal samples nothing (R431). -/
theorem push_samples_fill (c : Config) (l r : Sample) (g : Ring) :
    ((g.push c l r).2.totalWritten = g.totalWritten + 2 ∧ (g.push c l r).2.avgSum = g.avgSum + (g.push c l r).2.fill ∧
      (g.push c l r).2.avgCnt = g.avgCnt + 1) ∨
    ((g.push c l r).2.totalWritten = g.totalWritten ∧ (g.push c l r).2.avgSum = g.avgSum ∧
      (g.push c l r).2.avgCnt = g.avgCnt) := by
  rcases push_cases c l r g with ⟨-, e⟩ | ⟨-, h, k, hd, e | e⟩
  · rw [e]
    exact .inl ⟨rfl, rfl, rfl⟩
  · rw [e, hd]
    exact .inl ⟨rfl, rfl, rfl⟩
  · rw [e, hd]
    exact .inr ⟨rfl, rfl, rfl⟩

/-! The average fill and the queue's places (R420, R431). -/

theorem average_eq_zero {g : Ring} (h : g.avgCnt = 0) : g.average = 0 := if_pos h

theorem average_mul_avgCnt {g : Ring} (h : g.avgCnt ≠ 0) : g.average * g.avgCnt = g.avgSum := by
  rw [Ring.average, if_neg h, div_mul_cancel₀ _ (Nat.cast_ne_zero.mpr h)]

/-- The i-th sample from a position is what the buffer holds there, wrapping. -/
theorem samplesFrom_getElem? (g : Ring) (p : Nat) {i k : Nat} (hi : i < k) :
    (g.samplesFrom p k)[i]? = some (g.buf.read ((p + i) % g.size)) := by
  induction i generalizing p k with
  | zero =>
    obtain ⟨k, rfl⟩ := Nat.exists_eq_add_one.mpr hi
    rfl
  | succ i ih =>
    obtain ⟨k, rfl⟩ := Nat.exists_eq_add_one.mpr (Nat.zero_lt_of_lt hi)
    rw [Ring.samplesFrom, List.getElem?_cons_succ, ih (p + 1) (Nat.lt_of_succ_lt_succ hi), Nat.add_assoc, Nat.add_comm 1 i]

/-- POP with its answer as the front of the queue. -/
theorem exec_pop_eq (n : BitVec 32) (s : State) :
    exec (.pop n) s =
      .next { s with ring := (s.ring.pop n.toNat).2, resp := .samples (s.ring.contents.take (2 * s.ring.popCount n.toNat)) } := by
  rw [← (pop_contents n.toNat).1]
  rfl

end Sys2Proof.Machine

namespace Sys2Proof.Proofs

open Sys2Proof.Machine Sys2Proof.Safety

/-- Settles O30: the invariant is kept by every state change of the commands. -/
theorem ringInvariantKept : Obligations.RingInvariantKept := fun _ _ hs h => ringOk_keeps.step h hs

/-- Settles O26: the created ring, whose size is the least legal one. -/
theorem ringConfigCreatesEmptyRing : Obligations.RingConfigCreatesEmptyRing := fun size p overlay latency _ => by
  obtain ⟨hpow, hle, hleast⟩ := create_size_least size.toNat p latency.toNat overlay
  exact ⟨_, rfl, hpow, hle, hleast, rfl, rfl, rfl, fun _ => rfl, rfl, rfl, rfl, rfl, rfl, rfl, rfl, rfl⟩

/-- Settles O27: a ring without room is full, so each policy discards an even number of its samples and then stores or refuses. -/
theorem pushFollowsPolicy : Obligations.PushFollowsPolicy := by
  refine ⟨rfl, fun _ _ _ => rfl, fun c l r g hok => ⟨push_answer c l r g, fun hroom => ?_, ?_⟩⟩
  · have hfree : g.fill + 2 ≤ g.size := by omega
    rw [push_of_room l r hfree]
    exact pairStored_of_discards (discards_none g) hok hfree l r
  · by_cases hno : g.fill + 2 ≤ g.size
    · have hfree : ¬ g.size - g.fill < 2 := by omega
      exact ⟨fun h => absurd h hfree, fun h => absurd h hfree, fun h => absurd h hfree, fun h => absurd h hfree,
        fun h => absurd h hfree⟩
    have hfull := full_of_no_room hok hno
    have hsize := (IsRingSize.two_le hok.size).1
    obtain ⟨heven, hhalf⟩ := halve_count hok hfull
    refine ⟨fun _ hp => ?_, fun _ hp => ?_, fun _ hp hc => ?_, fun _ hp hc => ?_, fun _ hp => ?_⟩
    · rw [push_dropOldest l r hno hp]
      exact pairStored_dropOld hok hfull le_rfl (hfull ▸ hsize) (dvd_refl 2) l r
    · rw [push_dropNewest l r hno hp]
      exact pairRefused_refusePair g
    · rw [push_halveBuffer_refuses l r hno hp hc]
      exact pairRefused_dropOld hhalf
    · rw [push_halveBuffer_admits l r hno hp hc]
      exact pairStored_dropOld hok hfull (le_max_left ..) hhalf heven l r
    · rw [push_reset l r hno hp]
      exact pairStored_of_discards (dropAll_discards g) (dropAll_ok hok) hsize l r

/-- Settles O28: the queue's places in the buffer, then the samples taken and the queue left. -/
theorem popTakesOldestPairs : Obligations.PopTakesOldestPairs := by
  refine ⟨fun g _ hi => samplesFrom_getElem? g g.rd hi, fun n s => ?_⟩
  exact ⟨_, exec_pop_eq n s, rfl, (pop_contents n.toNat).2⟩

/-- Settles O29: the quotient by its definition, and the sampling of each policy's push. -/
theorem averageFillSamplesStoredPushes : Obligations.AverageFillSamplesStoredPushes :=
  ⟨fun _ => ⟨average_eq_zero, average_mul_avgCnt⟩, push_samples_fill, fun _ _ _ _ => ⟨rfl, rfl⟩⟩

end Sys2Proof.Proofs
end


section
/-!
The statements on completion, the IRQ watchdog and RESYNC (R440, R444, R447, R455): every command is a sequence of sound-RAM accesses, a
write of one register or of two, or RESET, and only the writes and RESET can clear the latch.
-/

namespace Sys2Proof.Machine

open Sys2Proof.Safety

/-! The offsets that reach CONTROL (R122, R130, R385). -/

theorem halfOff_of_decode_control {boff : ByteOff} (e : LogReg.decode (halfOff boff) = .glob .control) : halfOff boff = 0xD5#11 :=
  LogReg.decode_injective (e.trans (LogReg.decode_offset (.glob .control) nofun).symm)

theorem byteOff_halfOff {boff : ByteOff} (h : boff.getLsbD 0 = false) : byteOff (halfOff boff) = boff := by
  refine BitVec.eq_of_getLsbD_eq fun i hi => ?_
  cases i with
  | zero => rw [h, byteOff, BitVec.getLsbD_append]; rfl
  | succ i =>
    rw [byteOff, halfOff, BitVec.getLsbD_append, if_neg (by omega), BitVec.getLsbD_extractLsb', Nat.add_sub_cancel,
      decide_eq_true (by omega), Bool.true_and, Nat.add_comm]

theorem boff_of_decode_control {boff : ByteOff} (heven : boff.getLsbD 0 = false)
    (e : LogReg.decode (halfOff boff) = .glob .control) : boff = 0x1AA#12 := by
  rw [← byteOff_halfOff heven, halfOff_of_decode_control e]
  rfl

theorem wordBase_even (boff : ByteOff) : (wordBase boff).getLsbD 0 = false := by
  rw [wordBase, BitVec.getLsbD_and]
  exact Bool.and_false _

/-- The low cell of a word is at an even half-word offset, so it is not CONTROL (R385). -/
theorem decode_wordBase_ne_control (boff : ByteOff) : LogReg.decode (halfOff (wordBase boff)) ≠ .glob .control := fun e => by
  have hlow : (wordBase boff).getLsbD 1 = false := by rw [wordBase, BitVec.getLsbD_and]; exact Bool.and_false _
  rw [boff_of_decode_control (wordBase_even boff) e] at hlow
  exact absurd hlow (by decide)

/-- The word whose high cell is CONTROL. -/
theorem wordBase_of_decode_control {boff : ByteOff} (e : LogReg.decode (halfOff (wordBase boff + 2)) = .glob .control) :
    wordBase boff = 0x1A8#12 := by
  have heven : (wordBase boff + 2).getLsbD 0 = false := by
    rw [BitVec.getLsbD_add (by decide), wordBase_even, BitVec.carry_zero]
    rfl
  rw [BitVec.eq_sub_iff_add_eq.mpr (boff_of_decode_control heven e)]
  rfl

/-- Bit 6 of the value that WR8 stores (R383). -/
theorem zeroExtend_getLsbD_six (b : BitVec 8) : (0#8 ++ b).getLsbD 6 = b.getLsbD 6 := by
  rw [BitVec.getLsbD_append]
  rfl

/-- Bit 6 of the high cell that WR32 stores (R385). -/
theorem highCell_getLsbD_six (w : BitVec 32) : (w.extractLsb' 16 16).getLsbD 6 = w.getLsbD 22 := by
  rw [BitVec.getLsbD_extractLsb']
  rfl

/-! What the commands can do to sound RAM and the latch (R84, R444, R447). -/

/-- The commands that write one logical register. -/
inductive WritesOne : Instr → LogReg → Cell → Prop where
  | row (r : LogReg) (x : Cell) : WritesOne (writeRow r x) r x
  | wr8 (boff : ByteOff) (b : BitVec 8) (heven : boff.getLsbD 0 = false) :
      WritesOne (.wr8 boff b) (LogReg.decode (halfOff boff)) (0#8 ++ b)
  | wr16 (boff : ByteOff) (x : Cell) : WritesOne (.wr16 boff x) (LogReg.decode (halfOff boff)) x

/-- Every command makes accesses to sound RAM, which only set the latch and only while the watchdog is on, or it is RESET, or it writes one
register, or the two of a word. -/
theorem exec_cases {i : Instr} {s t : State} (h : exec i s = .next t) :
    RamStep (fun _ => True) s t ∨ (i = .reset ∧ t = { State.reset with port := s.port }) ∨
    (∃ r x, WritesOne i r x ∧ t = writeReg r x s) ∨
    ∃ boff w, i = .wr32 boff w ∧
      t = write16 (wordBase boff + 2) (w.extractLsb' 16 16) (write16 (wordBase boff) (w.extractLsb' 0 16) s) := by
  cases instrForm i with
  | reads r => rw [exec_readRow] at h; exact .inl (Host.Outcome.next.inj h ▸ .of_eq rfl rfl rfl)
  | writes r x => rw [exec_writeRow] at h; exact .inr (.inr (.inl ⟨r, x, .row r x, (Host.Outcome.next.inj h).symm⟩))
  | wr8 boff b =>
    cases hb : boff.getLsbD 0 with
    | false =>
      rw [exec_wr8_even hb] at h
      exact .inr (.inr (.inl ⟨_, _, .wr8 boff b hb, (Host.Outcome.next.inj h).symm⟩))
    | true => rw [exec_wr8_odd hb] at h; exact .inl (Host.Outcome.next.inj h ▸ .refl s)
  | wr16 boff x => exact .inr (.inr (.inl ⟨_, _, .wr16 boff x, (Host.Outcome.next.inj h).symm⟩))
  | wr32 boff w => exact .inr (.inr (.inr ⟨boff, w, rfl, (Host.Outcome.next.inj h).symm⟩))
  | reset => exact .inr (.inl ⟨rfl, (Host.Outcome.next.inj h).symm⟩)
  | dmast => exact .inl (Host.Outcome.next.inj h ▸ (xferPut_ramStep _ s trivial).trans (xferPut_ramStep _ _ trivial))
  | dmald =>
    have hbump : RamStep (fun _ => True) s (bumpXfer (bumpXfer s)) := .of_eq rfl rfl rfl
    exact .inl (Host.Outcome.next.inj h ▸ (hbump.trans (irqCheck_ramStep _ _ _)).trans (.of_eq rfl rfl rfl))
  | tick => exact .inl (Host.Outcome.next.inj h ▸ (tick_ramStep std s).mono fun _ _ => trivial)
  | resync n =>
    have hcarry : RamStep (fun _ => True) s { s with resyncAcc := (s.resyncAcc + n.toNat) % std.clockDiv } := .of_eq rfl rfl rfl
    have hticks := hcarry.trans ((ticks_ramStep std ((s.resyncAcc + n.toNat) / std.clockDiv) _).mono fun _ _ => trivial)
    exact .inl (Host.Outcome.next.inj h ▸ hticks.trans (.of_eq rfl rfl rfl))
  | _ => exact .inl (Host.Outcome.next.inj h ▸ .of_eq rfl rfl rfl)

/-- A register write but CONTROL's leaves the watchdog's enable bit. -/
theorem writeReg_irqEn {r : LogReg} (h : r ≠ .glob .control) (x : Cell) (s : State) : (writeReg r x s).irqEn = s.irqEn := by
  rw [State.irqEn, State.irqEn, writeReg_reg_other (k := 0xD5) fun hr => h (LogReg.storeCell_injective hr rfl)]

/-! RESYNC (R455). -/

theorem exec_resync_eq (n : BitVec 32) (s : State) :
    exec (.resync n) s =
      .next ((ticks std ((s.resyncAcc + n.toNat) / 768) { s with resyncAcc := (s.resyncAcc + n.toNat) % 768 }).respond
        (.ticks ((s.resyncAcc + n.toNat) / 768))) := rfl

end Sys2Proof.Machine

namespace Sys2Proof.Proofs

open Sys2Proof.Machine Sys2Proof.Safety

/-- Settles O52: sound-RAM accesses only set the latch, and a register write clears it only as an acknowledge at CONTROL. -/
theorem latchFallsOnlyByAcknowledge : Obligations.LatchFallsOnlyByAcknowledge := by
  intro i s t h hset hclear
  rcases exec_cases h with hram | ⟨rfl, -⟩ | ⟨r, x, hw, rfl⟩ | ⟨boff, w, rfl, rfl⟩
  · exact Bool.noConfusion ((hram.latchUp hset).symm.trans hclear)
  · exact .inl rfl
  · obtain ⟨hr, hack⟩ := writeReg_latch hset hclear
    cases hw with
    | row => subst hr; exact .inr (.inl ⟨x, rfl, hack⟩)
    | wr8 boff b heven =>
      rw [zeroExtend_getLsbD_six] at hack
      exact .inr (.inr (.inr (.inl ⟨boff, b, rfl, boff_of_decode_control heven hr, hack⟩)))
    | wr16 boff => exact .inr (.inr (.inl ⟨boff, x, rfl, halfOff_of_decode_control hr, hack⟩))
  · have hlow : (write16 (wordBase boff) (w.extractLsb' 0 16) s).irqLatch = true := by
      by_contra hlow
      exact decode_wordBase_ne_control boff (writeReg_latch hset (Bool.eq_false_of_not_eq_true hlow)).1
    obtain ⟨hr, hack⟩ := writeReg_latch hlow hclear
    rw [highCell_getLsbD_six] at hack
    exact .inr (.inr (.inr (.inr ⟨boff, w, rfl, wordBase_of_decode_control hr, hack⟩)))

/-- Settles O53: with the watchdog off neither a sound-RAM access nor a register write sets the latch; between the two writes of a word it
is off as well, since the low cell is not CONTROL. -/
theorem disabledWatchdogNeverLatches : Obligations.DisabledWatchdogNeverLatches := by
  intro i s t h hoff hoff' hset
  rcases exec_cases h with hram | ⟨-, rfl⟩ | ⟨r, x, -, rfl⟩ | ⟨boff, w, -, rfl⟩
  · exact (hram.latchOff hoff).symm.trans hset
  · exact Bool.noConfusion hset
  · exact writeReg_latchOff hoff' hset
  · have hbetween : (write16 (wordBase boff) (w.extractLsb' 0 16) s).irqEn = false :=
      (writeReg_irqEn (decode_wordBase_ne_control boff) _ s).trans hoff
    exact writeReg_latchOff hbetween (writeReg_latchOff hoff' hset)

/-- Settles O55: the ticks run as an iterate, with what every tick leaves. -/
theorem resyncRunsOwedTicks : Obligations.ResyncRunsOwedTicks := by
  refine ⟨rfl, fun _ => rfl, fun n s => ⟨_, exec_resync_eq n s, ?_, ticks_keep (tick_resyncAcc std) _ _, fun h =>
    ticks_keep (f := fun s => s.reg h) (fun s => tick_reg std s h) _ _, ticks_keep (tick_xferIndex std) _ _,
    ticks_keep (tick_cdL std) _ _, ticks_keep (tick_cdR std) _ _, ticks_keep (tick_port std) _ _⟩⟩
  rw [ticks_eq_iterate]
  rfl

/-- Settles O7: every form of command has a next state, and a step is idle or executes one. -/
theorem everyCommandCompletes : Obligations.EveryCommandCompletes := by
  refine ⟨exec_complete, fun s => ?_⟩
  cases hport : s.port with
  | nil => exact ⟨s, step_of_port_nil hport⟩
  | cons w rest =>
    rw [step_of_port hport]
    exact exec_complete _ _

/-- Settles O51: the comparator as one update of the latch, by its match over numbers. -/
theorem watchdogComparator : Obligations.WatchdogComparator := by
  intro i s
  refine ⟨fun hon hmatch => ?_, fun hno => ?_, rfl⟩
  · rw [irqCheck_match, hon, decide_eq_true hmatch, Bool.and_self, Bool.or_true]
  · have hmiss : ((s.reg 0xD5).getLsbD 6 && decide (i.toNat = 4 * (s.reg 0xD2).toNat)) = false := by
      rcases hno with hoff | hne
      · rw [hoff, Bool.false_and]
      · rw [decide_eq_false hne, Bool.and_false]
    rw [irqCheck_match, hmiss, Bool.or_false]

end Sys2Proof.Proofs
end
